-- ==== Sys2Proof/Word.lean ====
section
/-! DEFINITION. The widths the spec's rules use (00_scope.md R7) and the index of a channel. -/

namespace Sys2Proof

/-- `u8`: one telemetry byte, one CRC. -/
abbrev Byte := BitVec 8

/-- `u16`: a throttle code, a Command, a Frame, a telemetry field. -/
abbrev Half := BitVec 16

/-- `u32`: a duty-cycle value, one slot of a transmit buffer (R63), or a word RD returns (R142). -/
abbrev Slot := BitVec 32

/-- The EVT32 event word (R66). -/
abbrev EventWord := BitVec 32

/-- A channel index as the 4-bit CH field can hold it, 0 to 15 (R66); an operation's channel must
also be below `NCH`. -/
abbrev Ch := Fin 16

/-- The sixteen slots of one pulse train (R63). -/
abbrev Train := Vector Slot 16

end Sys2Proof
end

