-- ==== Sys2Proof/Syntax.lean ====
section
/-! DEFINITION. The operations of the block, one constructor per row of spec/opcode_table.json
(30_encoding.md R67). -/

namespace Sys2Proof

/-- The thirteen operations (R67): external events, and the sequencer's internal micro-steps. -/
inductive Instr where
  /-- `FS_TICK c`: the periodic callback of channel c fires (R91). -/
  | fsTick (c : Ch)
  /-- `TX_DONE c`: the transmit engine of channel c signals completion (R95). -/
  | txDone (c : Ch)
  /-- `RQ_TICK`: the coordinator's periodic callback fires (R111). -/
  | rqTick
  /-- `RX_BYTE b`: the byte receiver delivers one byte (R112). -/
  | rxByte (b : Byte)
  /-- `SET_CODE c, v`: the host sets the throttle code (R140). -/
  | setCode (c : Ch) (v : Half)
  /-- `SET_TLM c, v`: the host writes the telemetry flag (R141). -/
  | setTlm (c : Ch) (v : Bool)
  /-- `TLM_START`: the host activates the coordinator (R113). -/
  | tlmStart
  /-- `ACK_DEC`: the host acknowledges the updated marker (R114). -/
  | ackDec
  /-- `CLR_OVF`: the host clears the overflow report (R115). -/
  | clrOvf
  /-- `RD c, r`: the host reads one register (R142). -/
  | rd (c : Ch) (r : Byte)
  /-- `FS_COPY c`: the buffered train moves to the primary buffer (R92); internal. -/
  | fsCopy (c : Ch)
  /-- `FS_TRIG c`: the transfer is re-triggered (R93); internal. -/
  | fsTrig (c : Ch)
  /-- `FS_CLR c`: the telemetry flag is spent (R94); internal. -/
  | fsClr (c : Ch)
  deriving DecidableEq, Repr

end Sys2Proof
end

