-- ==== Sys2Proof/Decode.lean ====
section
/-! DEFINITION. The event word EVT32 (30_encoding.md R66 to R68): its decoder, its encoder, and the
table form the host asks for. -/

namespace Sys2Proof

/-- Why a word is illegal (R68), apart from the comparison of CH with `NCH`, which depends on the
configuration and is made after the row has matched. -/
inductive IllegalWord where
  /-- OP is `0x0`, `0xE` or `0xF`. -/
  | reservedOp
  /-- The Z field, bits 23:16, is not 0. -/
  | zNotZero
  /-- CH is not 0 in an operation without a channel. -/
  | chNotZero
  /-- DATA bits outside the operand are not 0. -/
  | dataNotZero
  deriving DecidableEq, Repr

/-- OP, bits 31:28 (R66). -/
def opField (w : EventWord) : BitVec 4 := w.extractLsb' 28 4

/-- CH, bits 27:24 (R66). -/
def chField (w : EventWord) : BitVec 4 := w.extractLsb' 24 4

/-- Z, bits 23:16 (R66). -/
def zField (w : EventWord) : BitVec 8 := w.extractLsb' 16 8

/-- DATA, bits 15:0 (R66). -/
def dataField (w : EventWord) : BitVec 16 := w.extractLsb' 0 16

/-- An operation with a channel and no DATA (R67). -/
def onChannel (w : EventWord) (i : Ch → Instr) : Except IllegalWord Instr :=
  if dataField w = 0 then .ok (i (chField w).toFin) else .error .dataNotZero

/-- An operation with neither channel nor DATA (R67). -/
def bare (w : EventWord) (i : Instr) : Except IllegalWord Instr :=
  if chField w = 0 then
    if dataField w = 0 then .ok i else .error .dataNotZero
  else .error .chNotZero

/-- DATA bits 7:0 are the operand and bits 15:8 must be 0 (RX_BYTE, RD; R67). -/
def onByteOperand (w : EventWord) (i : Byte → Instr) : Except IllegalWord Instr :=
  if (dataField w).extractLsb' 8 8 = 0 then .ok (i ((dataField w).extractLsb' 0 8))
  else .error .dataNotZero

/-- The operation a word names, or the reason it names none (R67, R68, operands by R70). -/
def decode (w : EventWord) : Except IllegalWord Instr :=
  if zField w = 0 then
    match (opField w).toNat with
    | 0x1 => onChannel w .fsTick
    | 0x2 => onChannel w .txDone
    | 0x3 => bare w .rqTick
    | 0x4 => if chField w = 0 then onByteOperand w .rxByte else .error .chNotZero
    | 0x5 => .ok (.setCode (chField w).toFin (dataField w))
    | 0x6 =>
      if (dataField w).extractLsb' 1 15 = 0 then
        .ok (.setTlm (chField w).toFin ((dataField w).getLsbD 0))
      else .error .dataNotZero
    | 0x7 => bare w .tlmStart
    | 0x8 => bare w .ackDec
    | 0x9 => bare w .clrOvf
    | 0xA => onByteOperand w (.rd (chField w).toFin)
    | 0xB => onChannel w .fsCopy
    | 0xC => onChannel w .fsTrig
    | 0xD => onChannel w .fsClr
    | _ => .error .reservedOp
  else .error .zNotZero

/-- The four fields of an event word put together (R66), with Z = 0. -/
def eventWord (op ch : BitVec 4) (data : BitVec 16) : EventWord := op ++ ch ++ 0#8 ++ data

/-- The CH field of a channel (R66). -/
def chBits (c : Ch) : BitVec 4 := .ofFin c

/-- The word of an operation (R67). -/
def encode : Instr → EventWord
  | .fsTick c => eventWord 0x1 (chBits c) 0
  | .txDone c => eventWord 0x2 (chBits c) 0
  | .rqTick => eventWord 0x3 0 0
  | .rxByte b => eventWord 0x4 0 (0#8 ++ b)
  | .setCode c v => eventWord 0x5 (chBits c) v
  | .setTlm c v => eventWord 0x6 (chBits c) (0#15 ++ BitVec.ofBool v)
  | .tlmStart => eventWord 0x7 0 0
  | .ackDec => eventWord 0x8 0 0
  | .clrOvf => eventWord 0x9 0 0
  | .rd c r => eventWord 0xA (chBits c) (0#8 ++ r)
  | .fsCopy c => eventWord 0xB (chBits c) 0
  | .fsTrig c => eventWord 0xC (chBits c) 0
  | .fsClr c => eventWord 0xD (chBits c) 0

/-- The match and mask of an operation's row of spec/opcode_table.json (R68). -/
def Instr.tableRow : Instr → EventWord × EventWord
  | .fsTick _ => (0x10000000, 0xF0FFFFFF)
  | .txDone _ => (0x20000000, 0xF0FFFFFF)
  | .rqTick => (0x30000000, 0xFFFFFFFF)
  | .rxByte _ => (0x40000000, 0xFFFFFF00)
  | .setCode _ _ => (0x50000000, 0xF0FF0000)
  | .setTlm _ _ => (0x60000000, 0xF0FFFFFE)
  | .tlmStart => (0x70000000, 0xFFFFFFFF)
  | .ackDec => (0x80000000, 0xFFFFFFFF)
  | .clrOvf => (0x90000000, 0xFFFFFFFF)
  | .rd _ _ => (0xA0000000, 0xF0FFFF00)
  | .fsCopy _ => (0xB0000000, 0xF0FFFFFF)
  | .fsTrig _ => (0xC0000000, 0xF0FFFFFF)
  | .fsClr _ => (0xD0000000, 0xF0FFFFFF)

/-- The rows of spec/opcode_table.json, each as match and mask, by operation number. -/
def opcodeTable : List (EventWord × EventWord) :=
  [Instr.fsTick 0, .txDone 0, .rqTick, .rxByte 0, .setCode 0 0, .setTlm 0 false, .tlmStart, .ackDec,
    .clrOvf, .rd 0 0, .fsCopy 0, .fsTrig 0, .fsClr 0].map Instr.tableRow

/-- The event word whose low `nbits` bits are those of `w` and whose other bits are 0. -/
def tableWord (nbits w : Nat) : EventWord := BitVec.ofNat 32 (w % 2 ^ nbits)

/-- The operation the decoder reads from a table word of `nbits` bits (log 23). -/
def decodeTableWord (nbits w : Nat) : Option Instr :=
  match decode (tableWord nbits w) with
  | .ok i => some i
  | .error _ => none

end Sys2Proof
end

