-- ==== Sys2Proof/Config.lean ====
section
/-! DEFINITION. The parameters of the block (00_scope.md R5), their domain, and the free choice of
the interleaving. -/

namespace Sys2Proof

/-- `RX_CAP`, the constant 10 (R5): the capacity of the receive buffer. -/
abbrev rxCap : Nat := 10

/-- The parameters of R5 as a setup layer may hand them over, in or out of their domain. -/
structure Params where
  /-- `NCH`: number of channels. -/
  nch : Nat
  /-- `SPEED_KHZ`: protocol speed in kHz. -/
  speedKhz : Nat
  /-- `T_FS_US`: the scheduler's packet interval in microseconds. -/
  tFsUs : Nat
  /-- `T_RQ_CFG_US`: the coordinator's configured request interval in microseconds. -/
  tRqCfgUs : Nat
  /-- `T_TLM_MIN_US`: the minimum protocol interval, whose value is in no source (N3). -/
  tTlmMinUs : Nat
  /-- `HIGH`: duty-cycle value of a frame bit that is 1. -/
  high : Slot
  /-- `LOW`: duty-cycle value of a frame bit that is 0. -/
  low : Slot
  /-- `SHIFT[c]` for c in [0, NCH), in order. -/
  shift : List Nat
  /-- `FRAME_SLOTS`: slots transferred per frame. -/
  frameSlots : Nat
  /-- `TLM_EN`: telemetry enabled. -/
  tlmEn : Bool
  deriving DecidableEq, Repr

/-- One channel's shift is in the domain: 0, or 16 with duty constants that lose no bit (R5). -/
def Params.shiftOk (p : Params) (k : Nat) : Bool :=
  k == 0 || (k == 16 && decide (p.high.toNat < 65536) && decide (p.low.toNat < 65536))

/-- The domain of R5. `NCH = 0` is in it (representable, a configuration error found at reset);
what lies outside is refused, that is, no `Config` can be built from it (R152, V8). -/
def Params.inDomain (p : Params) : Bool :=
  decide (p.nch ≤ 16) && decide (1 ≤ p.speedKhz) && decide (p.shift.length = p.nch) &&
    p.shift.all p.shiftOk && (p.frameSlots == 16 || p.frameSlots == 20)

/-- A configuration of the block: parameters inside the domain of R5. -/
structure Config extends Params where
  inDomain : toParams.inDomain = true
  deriving DecidableEq, Repr

/-- Building a configuration: refused (`none`) outside the domain (R5, R152, V8). -/
def Config.build? (p : Params) : Option Config :=
  if h : p.inDomain = true then some { toParams := p, inDomain := h } else none

/-- `SHIFT[c]`; a channel not below `NCH` has none, and no operation asks for it. -/
def Params.shiftOf (p : Params) (c : Ch) : Nat := p.shift.getD c.val 0

/-- The parameters `State.reset` uses: the conventions of 95_test_vectors.md (HIGH 75, LOW 33, no
shift, 16 slots, 600 kHz, 133 microseconds, telemetry enabled) with all sixteen channels.
DESIGN CHOICE (log 2), unsafe for a claim about `State.reset` alone; `T_RQ_CFG_US` and
`T_TLM_MIN_US`, which no rule reads, are 0 (log 21). -/
def Params.standard : Params where
  nch := 16
  speedKhz := 600
  tFsUs := 133
  tRqCfgUs := 0
  tTlmMinUs := 0
  high := 75
  low := 33
  shift := [0, 0, 0, 0, 0, 0, 0, 0, 0, 0, 0, 0, 0, 0, 0, 0]
  frameSlots := 16
  tlmEn := true

/-- The configuration of `State.reset` (log 2). -/
def Config.standard : Config where
  toParams := Params.standard
  inDomain := by decide

/-- Which of the enabled internal operations fires next when no input stands there: the spec fixes
no order (R46, R159), so the choice is a free value, drawn at the model's own counter
`State.freeDraws` (log 6). It has no body: nothing can be proved about its values. -/
opaque Config.freeChoice : Nat → Nat

end Sys2Proof
end

