-- ==== Sys2Proof/Machine/ConfigCheck.lean ====
section
/-! DEFINITION. The checks and derived figures of the configuration (60_exceptions.md R151, R152,
42_telemetry_coordinator.md R119, 70_reset_and_hazards.md R181, R195). -/

namespace Sys2Proof.Machine

/-- CfgInterval (R151): `T_FS_US * SPEED_KHZ < 16000`; equality is accepted (C2). -/
def cfgIntervalError (cfg : Config) : Bool := decide (cfg.tFsUs * cfg.speedKhz < 16000)

/-- CfgChannels (R152): `NCH < 1`. -/
def cfgChannelsError (cfg : Config) : Bool := decide (cfg.nch < 1)

/-- `RR_IDX` at reset (R19, R30): `NCH - 1`, and 0 when `NCH = 0`. -/
def resetIndex (cfg : Config) : Ch := Fin.ofNat 16 (cfg.nch - 1)

/-- `T_RQ_EFF` (R119): the interval the environment registers the coordinator's callback with. No
rule of the block reads it. -/
def tRqEff (cfg : Config) : Nat := max (cfg.tTlmMinUs * cfg.nch) cfg.tRqCfgUs

end Sys2Proof.Machine
end

