-- ==== Sys2Proof/Machine/State.lean ====
section
/-! DEFINITION. The state of the block (10_state.md R10 to R28), the reasons an operation can stop,
and the state after reset (R30, 70_reset_and_hazards.md R180, R181). -/

namespace Sys2Proof.Machine

/-- `FS_PC[c]`, the sequencer state of a channel (R16). -/
inductive FsPc where
  /-- 0: no tick in progress. -/
  | idle
  /-- 1: the new train is in `SEC[c]`; waiting for the transfer in flight. -/
  | wait
  /-- 2: the new train is in `PRI[c]`; the transfer is to be re-triggered. -/
  | trig
  /-- 3: the transfer has been triggered; the flag is to be cleared. -/
  | clr
  deriving DecidableEq, Repr

/-- `REC[c]`, the TelemetryRecord (R17). -/
structure TelemetryRecord where
  /-- `TEMP`: i8, degrees Celsius, held as its eight bits. -/
  temp : BitVec 8
  /-- `CV`: centi-volts. -/
  cv : BitVec 16
  /-- `CA`: centi-amps. -/
  ca : BitVec 16
  /-- `MAH`: consumption in mAh. -/
  mah : BitVec 16
  /-- `ERPM`: raw eRPM times 100. -/
  erpm : BitVec 32
  /-- `CRC`: the CRC8 over the ten bytes, 0 when the response is consistent. -/
  crc : BitVec 8
  deriving DecidableEq, Repr

/-- The ChannelState of one channel and its interface bit `TX_BUSY` (R10). -/
structure Channel where
  /-- `CODE[c]` (R11). -/
  code : Half
  /-- `TLM[c]` (R12). -/
  tlm : Bool
  /-- `PRI[c][0..15]` (R13); slots 16 to 19 are hardwired, `Channel.priSlot`. -/
  pri : Train
  /-- `SEC[c][0..15]` (R14); slots 16 to 19 are hardwired, `Channel.secSlot`. -/
  sec : Train
  /-- `CNT_DIRECT[c]` (R15). -/
  cntDirect : BitVec 32
  /-- `CNT_BUFFERED[c]` (R15). -/
  cntBuffered : BitVec 32
  /-- `FS_PC[c]` (R16). -/
  fsPc : FsPc
  /-- `REC[c]` (R17). The name `rec` is Lean's own for recursors. -/
  record : TelemetryRecord
  /-- `TX_BUSY[c]` (R18). -/
  txBusy : Bool
  deriving DecidableEq, Repr

/-- What R30 leaves unspecified of one channel at reset. -/
structure ChannelPowerUp where
  pri : Train
  sec : Train
  record : TelemetryRecord
  deriving DecidableEq, Repr

/-- What R30 leaves unspecified at reset: `PRI[c][0..15]`, `SEC[c][0..15]`, `REC[c]`, `RX_BUF`.
Every reset takes one of these as an argument, possibly a different one each time. -/
structure PowerUp where
  chans : Vector ChannelPowerUp 16
  rxBuf : Vector Byte 10
  deriving DecidableEq, Repr

/-- What the environment presents to the block: an event word (R66), or a reset with the
configuration sampled at its release (R180, R181) and the contents R30 leaves unspecified. -/
inductive Input where
  | word (w : EventWord)
  | reset (cfg : Config) (contents : PowerUp)
  deriving DecidableEq, Repr

/-- The state of the block. `cfg`, `rdOut`, `noResched`, `inputs` and `freeDraws` are the model's
own fields; every other one is the spec's. -/
structure State where
  /-- The parameters (R5), fixed while the block runs (R29; log 1). -/
  cfg : Config
  /-- The ChannelStates; entry c stands for channel c when c is below `NCH` and for nothing
  otherwise (log 8). -/
  chans : Vector Channel 16
  /-- `RR_IDX` (R19). -/
  rrIdx : Ch
  /-- `RX_BUF` (R20). -/
  rxBuf : Vector Byte 10
  /-- `RX_WR` (R21): 0 to 10. -/
  rxWr : Fin 11
  /-- `LAST_DEC` (R22); `none` is the value `0x1F`, NONE. -/
  lastDec : Option Ch
  /-- `TLM_ACTIVE` (R23). -/
  tlmActive : Bool
  /-- `RX_OVF` (R24). -/
  rxOvf : Bool
  /-- `RQ_ABORT` (R25). -/
  rqAbort : Bool
  /-- `CFG_ERR_IVL` (R26). -/
  cfgErrIvl : Bool
  /-- `CFG_ERR_NCH` (R26). -/
  cfgErrNch : Bool
  /-- `OUT` (R28): every transfer started, in order. -/
  out : List (Ch × List Slot)
  /-- The values RD has returned, in order (R142, R158; log 9). -/
  rdOut : List Slot
  /-- How often RQ_TICK has answered "do not reschedule" (R154, R158; log 10). -/
  noResched : Nat
  /-- What the environment presents next, in order (log 5). -/
  inputs : List Input
  /-- How many free choices have been drawn (log 6). -/
  freeDraws : Nat
  deriving DecidableEq, Repr

/-- The six error conditions, numbered 1 to 6 by R150 (`Fault.number`). Raising one is a NEXT state
(`State.raise`, R160): no operation, and so no step, ends in a fault, which is why every
constructor is safe (log 19). -/
inductive Fault where
  /-- 1, CfgInterval (R151): raised by the configuration check at the release of reset. Safe. -/
  | cfgInterval
  /-- 2, CfgChannels (R152): raised by the configuration check at the release of reset. Safe. -/
  | cfgChannels
  /-- 3, RxOverflow (R153): raised by RX_BYTE with a full buffer, with the dropped byte. Safe. -/
  | rxOverflow (b : Byte)
  /-- 4, RoundInvalid (R154): raised by RQ_TICK, with its two causes. Safe. -/
  | roundInvalid (stale short : Bool)
  /-- 5, CrcMismatch (R155): a value in a record, raised by nothing. Safe. -/
  | crcMismatch
  /-- 6, CodeRange (R156): never raised. Safe. -/
  | codeRange
  deriving DecidableEq, Repr

/-- Why an operation has no meaning in a state. Every constructor is safe: the model stops where
the spec refuses. -/
inductive Refusal where
  /-- An operation that has no meaning in this model, by its mnemonic; raised by no arm. Safe. -/
  | notModelled (mnemonic : String)
  /-- The word names no operation (R68); raised by the step. Safe. -/
  | illegalWord (why : IllegalWord)
  /-- The word is illegal because its CH is not below `NCH` (R68); raised by every operation with
  a channel. Safe. -/
  | channelOutOfRange
  /-- A configuration-error bit is 1 (R26, V6); raised by every operation but RD. Safe. -/
  | halted
  /-- FS_TICK outside IDLE (R91, R186, V2). Safe. -/
  | tickOverrun
  /-- FS_COPY, FS_TRIG or FS_CLR when its sequencer state does not enable it (R92 to R94). Safe. -/
  | notEnabled
  /-- TX_DONE with no transfer in flight (R95, V3). Safe. -/
  | noTransfer
  /-- SET_CODE with a value above 2047 (R140, U1). Safe. -/
  | codeRange
  /-- SET_TLM while the coordinator is active (R141, V4). Safe. -/
  | coordinatorActive
  /-- TLM_START with `TLM_EN = 0` (R113, V5). Safe. -/
  | telemetryDisabled
  /-- TLM_START while the coordinator is already active (R113, V5). Safe. -/
  | alreadyActive
  /-- RD of a number that names no register (R142, R143, V7). Safe. -/
  | noSuchRegister
  /-- RD of a global register with CH not 0 (R142). Safe. -/
  | globalWithChannel
  /-- RD of a slot not below `FRAME_SLOTS` (R142). Safe. -/
  | noSuchSlot
  deriving DecidableEq, Repr

/-- What an operation answers. -/
abbrev Result := Host.Outcome State Fault Refusal

/-- A record of zeros (log 3). -/
def TelemetryRecord.zero : TelemetryRecord :=
  { temp := 0, cv := 0, ca := 0, mah := 0, erpm := 0, crc := 0 }

/-- The contents `State.reset` names where R30 gives none: zeros. DESIGN CHOICE, unsafe (log 3). -/
def PowerUp.zero : PowerUp where
  chans := Vector.replicate 16
    { pri := Vector.replicate 16 0, sec := Vector.replicate 16 0, record := TelemetryRecord.zero }
  rxBuf := Vector.replicate 10 0

/-- One channel after reset (R30): the specified registers at their values, the rest as given. -/
def ChannelPowerUp.channel (u : ChannelPowerUp) : Channel where
  code := 0
  tlm := false
  pri := u.pri
  sec := u.sec
  cntDirect := 0
  cntBuffered := 0
  fsPc := .idle
  record := u.record
  txBusy := false

/-- The state after reset with a configuration and any contents of what R30 leaves unspecified
(R180, R181). -/
def State.resetWith (cfg : Config) (u : PowerUp) : State where
  cfg := cfg
  chans := Vector.ofFn fun c => u.chans[c].channel
  rrIdx := resetIndex cfg
  rxBuf := u.rxBuf
  rxWr := 10
  lastDec := none
  tlmActive := false
  rxOvf := false
  rqAbort := false
  cfgErrIvl := cfgIntervalError cfg
  cfgErrNch := cfgChannelsError cfg
  out := []
  rdOut := []
  noResched := 0
  inputs := []
  freeDraws := 0

/-- The machine right after reset: the standard configuration (log 2), zeros where R30 leaves the
contents unspecified (log 3), and nothing presented yet (log 5). -/
def State.reset : State := State.resetWith Config.standard PowerUp.zero

end Sys2Proof.Machine
end

