-- ==== Sys2Proof/Machine/Ops.lean ====
section
/-! DEFINITION. The named operations over registers and buffers, the one operation that raises an
error condition (60_exceptions.md R150 to R156, R160) with the returns from the lasting ones (R161),
reset (70_reset_and_hazards.md R180), and what the block does next by itself. -/

namespace Sys2Proof.Machine

/-! ## Registers of a channel -/

/-- The registers of channel c. -/
def State.chan (s : State) (c : Ch) : Channel := s.chans[c]

/-- Channel c's registers replaced. -/
def State.setChan (s : State) (c : Ch) (ch : Channel) : State :=
  { s with chans := s.chans.set c.val ch c.isLt }

/-- `TLM[c] <- v`. -/
def State.setTlm (s : State) (c : Ch) (v : Bool) : State :=
  s.setChan c { s.chan c with tlm := v }

/-- `for c in 0 .. NCH-1: TLM[c] <- 0` (R113, R154). -/
def State.clearFlags (s : State) : State :=
  { s with chans := Vector.ofFn fun c =>
      if c.val < s.cfg.nch then { s.chan c with tlm := false } else s.chan c }

/-- Slot i of `PRI[c]` (R13): slots 16 to 19 are hardwired 0. -/
def Channel.priSlot (ch : Channel) (i : Nat) : Slot := if h : i < 16 then ch.pri[i] else 0

/-- Slot i of `SEC[c]` (R14): slots 16 to 19 are hardwired 0. -/
def Channel.secSlot (ch : Channel) (i : Nat) : Slot := if h : i < 16 then ch.sec[i] else 0

/-- `PRI[c][0 .. n-1]`: what a transfer of n slots reads, in index order (R93, R99). -/
def Channel.transfer (ch : Channel) (n : Nat) : List Slot := (List.range n).map ch.priSlot

/-! ## Preconditions -/

/-- The block is halted: a configuration-error bit is 1 (R26, R163). -/
def State.halted (s : State) : Bool := s.cfgErrIvl || s.cfgErrNch

/-- An operation whose precondition `p` fails is refused by name; otherwise it goes on (R7). -/
def require (p : Prop) [Decidable p] (r : Refusal) (go : Result) : Result :=
  if p then go else .refused r

/-! ## The error conditions -/

/-- The number R150 gives a condition. No register holds it. -/
def Fault.number : Fault → Nat
  | .cfgInterval => 1
  | .cfgChannels => 2
  | .rxOverflow _ => 3
  | .roundInvalid _ _ => 4
  | .crcMismatch => 5
  | .codeRange => 6

/-- `raise X(info)` (R7, R150, R160): the whole effect of raising a condition. The dropped byte and
the cause are not kept. CrcMismatch is a value in a record and CodeRange is never raised: they
change nothing (R155, R156). -/
def State.raise (s : State) : Fault → State
  | .cfgInterval => { s with cfgErrIvl := true }
  | .cfgChannels => { s with cfgErrNch := true }
  | .rxOverflow _ => { s with rxOvf := true }
  | .roundInvalid _ _ =>
    { s.clearFlags with tlmActive := false, rqAbort := true, noResched := s.noResched + 1 }
  | .crcMismatch => s
  | .codeRange => s

/-- The return from RoundInvalid (R161): the host activates the coordinator again (R113). -/
def State.activate (s : State) : State :=
  { s.clearFlags with rxWr := 10, rqAbort := false, tlmActive := true }

/-- The return from RxOverflow (R161): the report is cleared (R115). -/
def State.clearOverflow (s : State) : State := { s with rxOvf := false }

/-- Reset (R180, R181), in any state: every register as R30 says, `OUT` emptied, the configuration
check made on the configuration sampled at its release. What the environment presents afterwards
and the count of free choices go on (log 7, log 20). -/
def State.applyReset (s : State) (cfg : Config) (u : PowerUp) : State :=
  { State.resetWith cfg u with inputs := s.inputs, freeDraws := s.freeDraws }

/-! ## The receive buffer -/

/-- Step 2 of RX_BYTE (R112): `RX_BUF[RX_WR] <- b; RX_WR <- RX_WR + 1`. -/
def State.appendByte (s : State) (b : Byte) (h : s.rxWr.val < rxCap) : State :=
  { s with rxBuf := s.rxBuf.set s.rxWr.val b h, rxWr := ⟨s.rxWr.val + 1, Nat.succ_lt_succ h⟩ }

/-! ## The internal operations -/

/-- The internal operation that the sequencer of channel c enables (R16, R92 to R94). -/
def State.internalOp? (s : State) (c : Ch) : Option Instr :=
  match (s.chan c).fsPc with
  | .idle => none
  | .wait => if (s.chan c).txBusy then none else some (.fsCopy c)
  | .trig => some (.fsTrig c)
  | .clr => some (.fsClr c)

/-- The enabled internal operations, by channel; none in a halted block (R26). -/
def State.enabledInternal (s : State) : List Instr :=
  if s.halted then []
  else (List.finRange 16).filterMap fun c => if c.val < s.cfg.nch then s.internalOp? c else none

/-- The internal operation that fires when nothing is presented: one of the enabled ones, which one
being a free value (R46, R159, R196; log 6). -/
def State.pickInternal? (s : State) : Option Instr :=
  s.enabledInternal[Config.freeChoice s.freeDraws % s.enabledInternal.length]?

/-! ## What comes next -/

/-- What the next step performs. -/
inductive Action where
  /-- Nothing is presented and no internal operation is enabled. -/
  | quiet
  /-- The presented word is illegal (R68). -/
  | illegal (why : IllegalWord)
  /-- A reset leaves this state (R180). -/
  | reset (s : State)
  /-- This operation, in this state. -/
  | run (i : Instr) (s : State)
  deriving DecidableEq, Repr

/-- What the environment presents, replaced. -/
def State.withInputs (s : State) (l : List Input) : State := { s with inputs := l }

/-- One more free choice drawn (log 6). -/
def State.countDraw (s : State) : State := { s with freeDraws := s.freeDraws + 1 }

/-- The next action: what the environment presents, in order (R46, R66), else an enabled internal
operation, which fires by itself (R67, R196). -/
def State.nextAction (s : State) : Action :=
  match s.inputs with
  | [] =>
    match s.pickInternal? with
    | none => .quiet
    | some i => .run i s.countDraw
  | .reset cfg u :: rest => .reset ((s.withInputs rest).applyReset cfg u)
  | .word w :: rest =>
    match decode w with
    | .ok i => .run i (s.withInputs rest)
    | .error why => .illegal why

/-- An event word put in front of what the environment presents. -/
def State.present (s : State) (w : EventWord) : State :=
  s.withInputs (.word w :: s.inputs)

end Sys2Proof.Machine
end

