-- ==== Sys2Proof/Machine/Flags.lean ====
section
/-! DEFINITION. The conditions computed from the state: the validation of a round, and the
STATUS word (42_telemetry_coordinator.md R111, 44_host_access.md R144). -/

namespace Sys2Proof.Machine

/-- `stale` of RQ_TICK (R111): some channel's flag is 1. -/
def State.stale (s : State) : Bool :=
  (List.finRange 16).any fun c => decide (c.val < s.cfg.nch) && (s.chan c).tlm

/-- `short` of RQ_TICK (R111): the previous round is not complete. -/
def State.short (s : State) : Bool := decide (s.rxWr.val ≠ rxCap)

/-- `FS_PC[c]` as its two bits (R16). -/
def FsPc.bits : FsPc → BitVec 2
  | .idle => 0
  | .wait => 1
  | .trig => 2
  | .clr => 3

/-- `LAST_DEC` as its five bits (R22): `0x1F` for NONE. -/
def lastDecBits : Option Ch → BitVec 5
  | none => 0x1F
  | some c => .ofNat 5 c.val

/-- `STATUS` (R144), bit 31 first. -/
def State.status (s : State) : Slot :=
  0#19 ++ lastDecBits s.lastDec ++ 0#3 ++ BitVec.ofBool s.rxOvf ++ BitVec.ofBool s.rqAbort ++
    BitVec.ofBool s.tlmActive ++ BitVec.ofBool s.cfgErrNch ++ BitVec.ofBool s.cfgErrIvl

end Sys2Proof.Machine
end

