-- ==== Sys2Proof/Machine/Telemetry.lean ====
section
/-! DEFINITION. TelemetryDecoder: three pure functions (43_telemetry_decoder.md R130 to R132). -/

namespace Sys2Proof.Machine

/-- One of the eight shift steps of `crc8_update` (R130): bit 7 is tested before the shift. -/
def crcStep (crc : BitVec 8) : BitVec 8 := if crc.getLsbD 7 then (crc <<< 1) ^^^ 0x07#8 else crc <<< 1

/-- `n` shift steps. -/
def crcSteps : Nat → BitVec 8 → BitVec 8
  | 0, crc => crc
  | n + 1, crc => crcSteps n (crcStep crc)

/-- `crc8_update` (R130). -/
def crc8Update (byte seed : BitVec 8) : BitVec 8 := crcSteps 8 (byte ^^^ seed)

/-- The fold of `crc8_update` over bytes in index order, from a seed (R131). -/
def crcFold (seed : BitVec 8) : List Byte → BitVec 8
  | [] => seed
  | b :: bs => crcFold (crc8Update b seed) bs

/-- `crc8` (R131): over all ten bytes, from seed 0. -/
def crc8 (buffer : Vector Byte 10) : BitVec 8 := crcFold 0 buffer.toList

/-- A big-endian 16-bit field (R70 item 8): the first byte is the more significant. -/
def bigEndian (hi lo : BitVec 8) : BitVec 16 := (hi.setWidth 16 <<< 8) ||| lo.setWidth 16

/-- `decode` (R132): the record of ten bytes. The product of ERPM is made in 32 bits. -/
def decodeTelemetry (buffer : Vector Byte 10) : TelemetryRecord where
  temp := buffer[0]
  cv := bigEndian buffer[1] buffer[2]
  ca := bigEndian buffer[3] buffer[4]
  mah := bigEndian buffer[5] buffer[6]
  erpm := (bigEndian buffer[7] buffer[8]).setWidth 32 * 100#32
  crc := crc8 buffer

end Sys2Proof.Machine
end

