-- ==== Sys2Proof/Machine/Coordinator.lean ====
section
/-! DEFINITION. TelemetryRequestCoordinator: RQ_TICK, RX_BYTE, TLM_START, ACK_DEC, CLR_OVF
(42_telemetry_coordinator.md R111 to R115). -/

namespace Sys2Proof.Machine

/-- The round-robin cursor's successor, `(RR_IDX + 1) mod NCH` (R111 step 3). -/
def State.nextIndex (s : State) : Ch := Fin.ofNat 16 ((s.rrIdx.val + 1) % s.cfg.nch)

/-- Steps 2 to 4 of a valid round (R111). -/
def State.advanceRound (s : State) : State :=
  State.setTlm { s.setTlm s.rrIdx false with rxWr := 0, rrIdx := s.nextIndex } s.nextIndex true

/-- RQ_TICK while the coordinator is active (R111): validation, then the round. The validation sees
only the flags and the byte count, as R111 writes it; that R194 also asks for an order of events is
not tested (DEDUCED, log 26). -/
def State.requestTick (s : State) : State :=
  if s.stale || s.short then s.raise (.roundInvalid s.stale s.short) else s.advanceRound

/-- RQ_TICK (R111): ignored while inactive. -/
def execRqTick (s : State) : Result :=
  require (s.halted = false) .halted <|
  .next (if s.tlmActive then s.requestTick else s)

/-- Step 3 of RX_BYTE (R112): with all ten bytes there, decode into the current channel's record
and mark it. -/
def State.decodeIfFull (s : State) : State :=
  if s.rxWr.val = rxCap then
    { s.setChan s.rrIdx { s.chan s.rrIdx with record := decodeTelemetry s.rxBuf } with
      lastDec := some s.rrIdx }
  else s

/-- The effect of RX_BYTE b with telemetry enabled (R112). -/
def State.receive (s : State) (b : Byte) : State :=
  if h : s.rxWr.val < rxCap then (s.appendByte b h).decodeIfFull else s.raise (.rxOverflow b)

/-- RX_BYTE b (R112): ignored with `TLM_EN = 0`. -/
def execRxByte (b : Byte) (s : State) : Result :=
  require (s.halted = false) .halted <|
  .next (if s.cfg.tlmEn then s.receive b else s)

/-- TLM_START (R113). -/
def execTlmStart (s : State) : Result :=
  require (s.halted = false) .halted <|
  require (s.cfg.tlmEn = true) .telemetryDisabled <|
  require (s.tlmActive = false) .alreadyActive <|
  .next s.activate

/-- ACK_DEC (R114). -/
def execAckDec (s : State) : Result :=
  require (s.halted = false) .halted <|
  .next { s with lastDec := none }

/-- CLR_OVF (R115). -/
def execClrOvf (s : State) : Result :=
  require (s.halted = false) .halted <|
  .next s.clearOverflow

end Sys2Proof.Machine
end

