-- ==== Sys2Proof/Machine/Codec.lean ====
section
/-! DEFINITION. PacketCodec: five pure functions (40_packet_codec.md R80 to R84). -/

namespace Sys2Proof.Machine

/-- `command_from` (R80): `trunc_16((code << 1) | zext_16(telemetry))`. -/
def commandFrom (code : BitVec 16) (telemetry : Bool) : BitVec 16 :=
  (code <<< 1) ||| (BitVec.ofBool telemetry).setWidth 16

/-- `checksum4` (R81): the exclusive-or fold of the three low nibbles. -/
def checksum4 (command : BitVec 16) : BitVec 16 :=
  0x000F#16 &&& (command ^^^ (command >>> 4) ^^^ (command >>> 8))

/-- `frame_from` (R82): `trunc_16((command << 4) | checksum4(command))`. -/
def frameFrom (command : BitVec 16) : BitVec 16 := (command <<< 4) ||| checksum4 command

/-- The value of a slot that carries frame bit `b` (R63, R83). -/
def slotOf (high low : BitVec 32) (shift : Nat) (b : Bool) : BitVec 32 := (if b then high else low) <<< shift

/-- `pulse_train` (R83): slot i carries frame bit 15 - i. -/
def pulseTrain (frame : BitVec 16) (high low : BitVec 32) (shift : Nat) : Train :=
  Vector.ofFn fun i => slotOf high low shift (frame.getLsbD (15 - i.val))

/-- `compose` (R84): the pipeline of the three. -/
def compose (code : BitVec 16) (telemetry : Bool) (high low : BitVec 32) (shift : Nat) : Train :=
  pulseTrain (frameFrom (commandFrom code telemetry)) high low shift

end Sys2Proof.Machine
end

