-- ==== Sys2Proof/Machine/FrameScheduler.lean ====
section
/-! DEFINITION. FrameScheduler: FS_TICK, FS_COPY, FS_TRIG, FS_CLR, TX_DONE
(41_frame_scheduler.md R91 to R95). The configuration-error bits are tested before anything else of
the operation (R26, R159; DEDUCED for FS_COPY, FS_TRIG, FS_CLR and TX_DONE, log 11). -/

namespace Sys2Proof.Machine

/-- The pulse train that FS_TICK c composes: the code and the flag as they are now (R91). -/
def State.train (s : State) (c : Ch) : Train :=
  compose (s.chan c).code (s.chan c).tlm s.cfg.high s.cfg.low (s.cfg.shiftOf c)

/-- The effect of FS_TICK c (R91): the buffered path with a transfer in flight, else the direct
path. -/
def State.tick (s : State) (c : Ch) : State :=
  if (s.chan c).txBusy then
    s.setChan c { s.chan c with sec := s.train c, fsPc := .wait }
  else
    s.setChan c
      { s.chan c with
        pri := s.train c, cntDirect := (s.chan c).cntDirect + 1, fsPc := .trig }

/-- FS_TICK c (R91). -/
def execFsTick (c : Ch) (s : State) : Result :=
  require (c.val < s.cfg.nch) .channelOutOfRange <|
  require (s.halted = false) .halted <|
  require ((s.chan c).fsPc = .idle) .tickOverrun <|
  .next (s.tick c)

/-- FS_COPY c (R92). -/
def execFsCopy (c : Ch) (s : State) : Result :=
  require (c.val < s.cfg.nch) .channelOutOfRange <|
  require (s.halted = false) .halted <|
  require ((s.chan c).fsPc = .wait ∧ (s.chan c).txBusy = false) .notEnabled <|
  .next (s.setChan c
    { s.chan c with
      pri := (s.chan c).sec, cntBuffered := (s.chan c).cntBuffered + 1, fsPc := .trig })

/-- FS_TRIG c (R93). -/
def execFsTrig (c : Ch) (s : State) : Result :=
  require (c.val < s.cfg.nch) .channelOutOfRange <|
  require (s.halted = false) .halted <|
  require ((s.chan c).fsPc = .trig) .notEnabled <|
  .next
    { s.setChan c { s.chan c with txBusy := true, fsPc := .clr } with
      out := s.out ++ [(c, (s.chan c).transfer s.cfg.frameSlots)] }

/-- FS_CLR c (R94). -/
def execFsClr (c : Ch) (s : State) : Result :=
  require (c.val < s.cfg.nch) .channelOutOfRange <|
  require (s.halted = false) .halted <|
  require ((s.chan c).fsPc = .clr) .notEnabled <|
  .next (s.setChan c { s.chan c with tlm := false, fsPc := .idle })

/-- TX_DONE c (R95). -/
def execTxDone (c : Ch) (s : State) : Result :=
  require (c.val < s.cfg.nch) .channelOutOfRange <|
  require (s.halted = false) .halted <|
  require ((s.chan c).txBusy = true) .noTransfer <|
  .next (s.setChan c { s.chan c with txBusy := false })

end Sys2Proof.Machine
end

