-- ==== Sys2Proof/Machine/Operands.lean ====
section
/-! DEFINITION. The register numbers of RD and what it returns for each (44_host_access.md R142,
R143). -/

namespace Sys2Proof.Machine

/-- The registers RD can name (R143). -/
inductive Reg where
  | code | tlm | fsPc | txBusy | cntDirect | cntBuffered
  | recTemp | recCv | recCa | recMah | recErpm | recCrc
  | pri (i : Nat) | sec (i : Nat)
  | status | rrIdx | rxWr
  | rxBuf (k : Fin 10)
  deriving DecidableEq, Repr

/-- The registers with a number of their own (R143). -/
def Reg.ofSingle : Nat → Option Reg
  | 0x00 => some .code
  | 0x01 => some .tlm
  | 0x02 => some .fsPc
  | 0x03 => some .txBusy
  | 0x04 => some .cntDirect
  | 0x05 => some .cntBuffered
  | 0x08 => some .recTemp
  | 0x09 => some .recCv
  | 0x0A => some .recCa
  | 0x0B => some .recMah
  | 0x0C => some .recErpm
  | 0x0D => some .recCrc
  | 0x80 => some .status
  | 0x81 => some .rrIdx
  | 0x82 => some .rxWr
  | _ => none

/-- The register a number names, or none (R143): slots are numbered from `0x20` and `0x40`, twenty
each, the receive bytes from `0x90`. -/
def Reg.ofNumber (r : Byte) : Option Reg :=
  let n := r.toNat
  if 0x20 ≤ n ∧ n < 0x34 then some (.pri (n - 0x20))
  else if 0x40 ≤ n ∧ n < 0x54 then some (.sec (n - 0x40))
  else if h : 0x90 ≤ n ∧ n < 0x9A then some (.rxBuf ⟨n - 0x90, by omega⟩)
  else Reg.ofSingle n

/-- The global registers, read with CH = 0 (R143). -/
def Reg.isGlobal : Reg → Bool
  | .status | .rrIdx | .rxWr | .rxBuf _ => true
  | .code | .tlm | .fsPc | .txBusy | .cntDirect | .cntBuffered => false
  | .recTemp | .recCv | .recCa | .recMah | .recErpm | .recCrc => false
  | .pri _ | .sec _ => false

/-- A slot register exists when its index is below `FRAME_SLOTS` (R142, R143). -/
def Reg.slotExists (frameSlots : Nat) : Reg → Bool
  | .pri i | .sec i => decide (i < frameSlots)
  | _ => true

/-- The 32-bit word RD returns for a register (R142): zero-extended, TEMP sign-extended. -/
def State.readReg (s : State) (c : Ch) : Reg → Slot
  | .code => (s.chan c).code.setWidth 32
  | .tlm => (BitVec.ofBool (s.chan c).tlm).setWidth 32
  | .fsPc => (s.chan c).fsPc.bits.setWidth 32
  | .txBusy => (BitVec.ofBool (s.chan c).txBusy).setWidth 32
  | .cntDirect => (s.chan c).cntDirect
  | .cntBuffered => (s.chan c).cntBuffered
  | .recTemp => (s.chan c).record.temp.signExtend 32
  | .recCv => (s.chan c).record.cv.setWidth 32
  | .recCa => (s.chan c).record.ca.setWidth 32
  | .recMah => (s.chan c).record.mah.setWidth 32
  | .recErpm => (s.chan c).record.erpm
  | .recCrc => (s.chan c).record.crc.setWidth 32
  | .pri i => (s.chan c).priSlot i
  | .sec i => (s.chan c).secSlot i
  | .status => s.status
  | .rrIdx => .ofNat 32 s.rrIdx.val
  | .rxWr => .ofNat 32 s.rxWr.val
  | .rxBuf k => s.rxBuf[k].setWidth 32

/-- RD's answer recorded for the host (R142, R158; log 9): no register changes. -/
def State.answer (s : State) (v : Slot) : State := { s with rdOut := s.rdOut ++ [v] }

end Sys2Proof.Machine
end

