-- ==== Sys2Proof/Machine/HostAccess.lean ====
section
/-! DEFINITION. Host access: SET_CODE, SET_TLM, RD (44_host_access.md R140 to R142). -/

namespace Sys2Proof.Machine

/-- SET_CODE c, v (R140). -/
def execSetCode (c : Ch) (v : Half) (s : State) : Result :=
  require (c.val < s.cfg.nch) .channelOutOfRange <|
  require (s.halted = false) .halted <|
  require (v.toNat ≤ 2047) .codeRange <|
  .next (s.setChan c { s.chan c with code := v })

/-- SET_TLM c, v (R141). -/
def execSetTlm (c : Ch) (v : Bool) (s : State) : Result :=
  require (c.val < s.cfg.nch) .channelOutOfRange <|
  require (s.halted = false) .halted <|
  require (s.tlmActive = false) .coordinatorActive <|
  .next (s.setTlm c v)

/-- RD of a register that the number names (R142), accepted in a halted block too. -/
def readNamed (c : Ch) (reg : Reg) (s : State) : Result :=
  require (reg.isGlobal = true → c = 0) .globalWithChannel <|
  require (reg.isGlobal = false → c.val < s.cfg.nch) .channelOutOfRange <|
  require (reg.slotExists s.cfg.frameSlots = true) .noSuchSlot <|
  .next (s.answer (s.readReg c reg))

/-- RD c, r (R142): CH is below `NCH`, or 0 for a global register (log 25). -/
def execRd (c : Ch) (r : Byte) (s : State) : Result :=
  require (c.val < s.cfg.nch ∨ c = 0) .channelOutOfRange <|
  match Reg.ofNumber r with
  | none => .refused .noSuchRegister
  | some reg => readNamed c reg s

end Sys2Proof.Machine
end

