-- ==== Sys2Proof/Machine/Dispatch.lean ====
section
/-! DEFINITION. The meaning of each operation (30_encoding.md R67), one arm per constructor. -/

namespace Sys2Proof.Machine

def exec (i : Instr) (s : State) : Host.Outcome State Fault Refusal :=
  match i with
  | .fsTick c => Sys2Proof.Machine.execFsTick c s
  | .txDone c => Sys2Proof.Machine.execTxDone c s
  | .rqTick => Sys2Proof.Machine.execRqTick s
  | .rxByte b => Sys2Proof.Machine.execRxByte b s
  | .setCode c v => Sys2Proof.Machine.execSetCode c v s
  | .setTlm c v => Sys2Proof.Machine.execSetTlm c v s
  | .tlmStart => Sys2Proof.Machine.execTlmStart s
  | .ackDec => Sys2Proof.Machine.execAckDec s
  | .clrOvf => Sys2Proof.Machine.execClrOvf s
  | .rd c r => Sys2Proof.Machine.execRd c r s
  | .fsCopy c => Sys2Proof.Machine.execFsCopy c s
  | .fsTrig c => Sys2Proof.Machine.execFsTrig c s
  | .fsClr c => Sys2Proof.Machine.execFsClr c s

end Sys2Proof.Machine
end

