-- ==== Sys2Proof/Machine/Step.lean ====
section
/-! DEFINITION. One step of the block (00_scope.md R8, 20_memory.md R46): one operation of one agent,
or a reset. -/

namespace Sys2Proof.Machine

/-- One step: what `State.nextAction` finds. With nothing presented and nothing enabled, nothing
happens. -/
def step (s : State) : Host.Outcome State Fault Refusal :=
  match s.nextAction with
  | .quiet => .next s
  | .illegal why => .refused (.illegalWord why)
  | .reset t => .next t
  | .run i t => exec i t

/-- The state in which the very next step takes the event word of these bits (log 5). -/
def State.withFetchWord (s : State) (nbits w : Nat) : State := s.present (tableWord nbits w)

end Sys2Proof.Machine
end

