-- ==== Sys2Proof/WellFormed.lean ====
section
/-! DEFINITION. The one check of an operation that its fields' types do not make: the comparison of
CH with `NCH` (30_encoding.md R68). -/

namespace Sys2Proof

/-- The channel of an operation that always acts on one (R67); RD is apart, since its channel field
is 0 for a global register. -/
def Instr.channel? : Instr → Option Ch
  | .fsTick c => some c
  | .txDone c => some c
  | .rqTick => none
  | .rxByte _ => none
  | .setCode c _ => some c
  | .setTlm c _ => some c
  | .tlmStart => none
  | .ackDec => none
  | .clrOvf => none
  | .rd _ _ => none
  | .fsCopy c => some c
  | .fsTrig c => some c
  | .fsClr c => some c

/-- An operation is well formed for `nch` channels when its channel is below `nch` (R68). RD with
channel 0 is well formed for every `nch`: a global register is read with CH = 0 even when
`NCH = 0` (R142; DEDUCED, log 25). -/
def Instr.wellFormed (nch : Nat) : Instr → Bool
  | .rd c _ => decide (c.val < nch) || decide (c = 0)
  | .fsTick c => decide (c.val < nch)
  | .txDone c => decide (c.val < nch)
  | .setCode c _ => decide (c.val < nch)
  | .setTlm c _ => decide (c.val < nch)
  | .fsCopy c => decide (c.val < nch)
  | .fsTrig c => decide (c.val < nch)
  | .fsClr c => decide (c.val < nch)
  | .rqTick => true
  | .rxByte _ => true
  | .tlmStart => true
  | .ackDec => true
  | .clrOvf => true

end Sys2Proof
end

