-- ==== Sys2Proof/Safety.lean ====
section
/-! DEFINITION. The terms the claims use: the invariants of the state (10_state.md R31), the rest of
the state that an operation leaves alone, and the train a tick in progress will send. -/

namespace Sys2Proof.Machine

/-! ## Invariants (R31) -/

/-- R31 item 2: the round-robin cursor names a channel. -/
def State.CursorInRange (s : State) : Prop := 1 ≤ s.cfg.nch → s.rrIdx.val < s.cfg.nch

/-- R31 item 3: the marker names a channel or is NONE. -/
def State.MarkerInRange (s : State) : Prop := ∀ k, s.lastDec = some k → k.val < s.cfg.nch

/-- R31 item 6: a transfer is re-triggered only when none is in flight. -/
def State.TrigMeansNotBusy (s : State) : Prop :=
  ∀ c, (s.chan c).fsPc = .trig → (s.chan c).txBusy = false

/-- R31 item 8, R116: while the coordinator is active only the current channel's flag can be 1. -/
def State.OneFlagAtATime (s : State) : Prop :=
  s.tlmActive = true → ∀ c : Ch, c.val < s.cfg.nch → c ≠ s.rrIdx → (s.chan c).tlm = false

/-- R26, R181: the configuration-error bits are those of the configuration. -/
def State.ConfigChecked (s : State) : Prop :=
  s.cfgErrIvl = cfgIntervalError s.cfg ∧ s.cfgErrNch = cfgChannelsError s.cfg

/-- R110: with `TLM_EN = 0` the coordinator is never active. -/
def State.DisabledInactive (s : State) : Prop := s.cfg.tlmEn = false → s.tlmActive = false

/-- R25, R161: a coordinator halted by a failed validation is not active. -/
def State.AbortedInactive (s : State) : Prop := s.rqAbort = true → s.tlmActive = false

/-- R11, R156: no throttle code above 2047 is inside the block. -/
def State.CodesLegal (s : State) : Prop := ∀ c, (s.chan c).code.toNat ≤ 2047

/-- R28, R63: every transfer started was one of an existing channel, `FRAME_SLOTS` slots long, its
slots from 16 on zero. -/
def State.TransfersWhole (s : State) : Prop :=
  ∀ e ∈ s.out, e.1.val < s.cfg.nch ∧ e.2.length = s.cfg.frameSlots ∧
    ∀ j, 16 ≤ j → j < s.cfg.frameSlots → e.2[j]? = some 0

/-- All of the invariants together. -/
structure State.Inv (s : State) : Prop where
  cursor : s.CursorInRange
  marker : s.MarkerInRange
  trig : s.TrigMeansNotBusy
  oneFlag : s.OneFlagAtATime
  config : s.ConfigChecked
  disabled : s.DisabledInactive
  aborted : s.AbortedInactive
  codes : s.CodesLegal
  transfers : s.TransfersWhole

/-! ## What a claim says an operation leaves alone -/

/-- No reset is what comes next. -/
def State.NoResetNext (s : State) : Prop := ∀ cfg u rest, s.inputs ≠ .reset cfg u :: rest

/-- `t` is `s` but for registers of channel c. -/
def State.OnlyChannel (s t : State) (c : Ch) : Prop := t = s.setChan c (t.chan c)

/-! ## Several operations -/

/-- The operations of a list one after another, each in the state the one before it answers, up to the
first that answers none (R46). -/
def execAll : List Instr → State → Result
  | [], s => .next s
  | i :: ops, s =>
    match exec i s with
    | .next t => execAll ops t
    | .fault f => .fault f
    | .refused r => .refused r

/-! ## The train a tick in progress will send (R96, R192) -/

/-- A tick of channel c is in progress and has composed this train: it waits in `SEC[c]`, or stands
in `PRI[c]` to be triggered. -/
def State.Pending (s : State) (c : Ch) (train : Train) : Prop :=
  ((s.chan c).fsPc = .wait ∧ (s.chan c).sec = train) ∨
    ((s.chan c).fsPc = .trig ∧ (s.chan c).pri = train)

/-- What a transfer of a train is: its sixteen slots, then zeros up to `n` slots (R63). -/
def paddedTrain (train : Train) (n : Nat) : List Slot := train.toList ++ List.replicate (n - 16) 0

/-! ## How far the sequencers are from rest (R196) -/

/-- How many internal operations channel c has before it, up to the next wait for the engine. -/
def Channel.pendingOps (ch : Channel) : Nat :=
  match ch.fsPc with
  | .idle => 0
  | .wait => if ch.txBusy then 0 else 3
  | .trig => 2
  | .clr => 1

/-- The internal operations before the whole block, up to the next wait for an engine. -/
def State.pendingOps (s : State) : Nat :=
  ((List.finRange 16).map fun c => if c.val < s.cfg.nch then (s.chan c).pendingOps else 0).sum

end Sys2Proof.Machine
end

