-- ==== Sys2Proof/Certificates/Slice0/Obligations.lean ====
section
/-! DEFINITION. The statements for the provers. Each docstring names the rule of the spec it
formalises, or the log entry of the model's choice it rests on. -/

open Sys2Proof Sys2Proof.Machine

/-! ## Event words (30_encoding.md) -/

/-- R66, R67: no bit of an operation's word is dropped. -/
def Obligations.DecodeOfEncodeIsTheInstruction : Prop :=
  ∀ i : Instr, decode (encode i) = .ok i

/-- R66 to R68: an operation has one word only. -/
def Obligations.DecodedWordIsItsEncoding : Prop :=
  ∀ (w : EventWord) (i : Instr), decode w = .ok i → encode i = w

/-- R68: a word names an operation exactly when it matches a row of the opcode table under the row's
mask, and then it matches the row of the operation it names. -/
def Obligations.DecodableExactlyByTableRow : Prop :=
  ∀ w : EventWord,
    ((∃ i, decode w = .ok i) ↔ ∃ row ∈ opcodeTable, w &&& row.2 = row.1) ∧
    ∀ i, decode w = .ok i → w &&& i.tableRow.2 = i.tableRow.1

/-- From R68: a word with a reserved OP, a non-zero Z field, or non-zero bits where its row demands
zero is refused, and so is one whose CH is not below `NCH`. Of the last the statement names the model's
refusal and, in a halted block too, the model's order of tests (log 12); and `Instr.wellFormed` leaves
out RD with CH 0 and `NCH = 0`, which the model accepts for a global register (log 25). -/
def Obligations.IllegalWordsAreRefused : Prop :=
  ∀ (s : State) (w : EventWord) (rest : List Input), s.inputs = .word w :: rest →
    ((opField w = 0x0 ∨ opField w = 0xE ∨ opField w = 0xF ∨ zField w ≠ 0) →
      ∃ why, step s = .refused (.illegalWord why)) ∧
    ((∀ row ∈ opcodeTable, w &&& row.2 ≠ row.1) → ∃ why, step s = .refused (.illegalWord why)) ∧
    (∀ i, decode w = .ok i → i.wellFormed s.cfg.nch = false →
      step s = .refused .channelOutOfRange)

/-- T80, T81: words of 95_test_vectors.md decode, or are refused, as listed there. -/
def Obligations.SampleEventWordsDecode : Prop :=
  decode 0x1F000000 = .ok (.fsTick 15) ∧ decode 0x4000001C = .ok (.rxByte 0x1C) ∧
  decode 0x51000416 = .ok (.setCode 1 1046) ∧ decode 0x61000001 = .ok (.setTlm 1 true) ∧
  decode 0xA200000C = .ok (.rd 2 0x0C) ∧ decode 0xC1000000 = .ok (.fsTrig 1) ∧
  decode 0x00000000 = .error .reservedOp ∧ decode 0x10010000 = .error .zNotZero ∧
  decode 0x31000000 = .error .chNotZero ∧ decode 0x60000002 = .error .dataNotZero

/-- R46, R66: when the next input is a word that decodes, one step is that operation, in the state
without the word; and the word that `State.withFetchWord` presents is what the next step runs. That
words are presented through a list is the model's choice (log 5). -/
def Obligations.StepRunsTheDecodedWord : Prop :=
  (∀ (s : State) (w : EventWord) (rest : List Input) (i : Instr),
    s.inputs = .word w :: rest → decode w = .ok i →
      step s = exec i (s.withInputs rest)) ∧
  ∀ (s : State) (i : Instr), step (s.withFetchWord 32 (encode i).toNat) = exec i s

/-! ## PacketCodec (40_packet_codec.md) -/

/-- R80: the Command as a number. -/
def Obligations.CommandIsCodeThenTelemetry : Prop :=
  ∀ (code : BitVec 16) (t : Bool),
    (commandFrom code t).toNat = (2 * code.toNat + t.toNat) % 65536

/-- R81: the checksum is the exclusive or of the three low nibbles. -/
def Obligations.ChecksumFoldsThreeNibbles : Prop :=
  ∀ command : BitVec 16,
    checksum4 command =
      (command.extractLsb' 0 4 ^^^ command.extractLsb' 4 4 ^^^ command.extractLsb' 8 4).setWidth 16

/-- R82: the high twelve bits of a frame are the Command's low twelve, the low four its checksum. -/
def Obligations.FrameIsCommandThenChecksum : Prop :=
  ∀ command : BitVec 16,
    (frameFrom command).extractLsb' 4 12 = command.extractLsb' 0 12 ∧
    (frameFrom command).extractLsb' 0 4 = (checksum4 command).extractLsb' 0 4

/-- R86 item 1 (derived there): the checksum round trip. -/
def Obligations.ChecksumRoundTrip : Prop :=
  ∀ (code : BitVec 16) (t : Bool),
    checksum4 (frameFrom (commandFrom code t) >>> 4) = frameFrom (commandFrom code t) &&& 0x000F#16

/-- R86 item 2 (derived there): only code bits 10:0 reach the frame. -/
def Obligations.FrameIgnoresHighCodeBits : Prop :=
  ∀ (code : BitVec 16) (t : Bool),
    frameFrom (commandFrom code t) = frameFrom (commandFrom (code &&& 0x07FF#16) t)

/-- R62 and S1: the frame carries the code in bits 15:5 and the telemetry bit in bit 4, and the
4096 frames of the legal codes are pairwise different. -/
def Obligations.FrameDeterminesCodeAndTelemetry : Prop :=
  (∀ (code : BitVec 16) (t : Bool), code.toNat ≤ 2047 →
    ((frameFrom (commandFrom code t)).extractLsb' 5 11).toNat = code.toNat ∧
    (frameFrom (commandFrom code t)).getLsbD 4 = t) ∧
  ∀ (code code' : BitVec 16) (t t' : Bool), code.toNat ≤ 2047 → code'.toNat ≤ 2047 →
    frameFrom (commandFrom code t) = frameFrom (commandFrom code' t') → code = code' ∧ t = t'

/-- R83: slot i carries frame bit 15 - i. -/
def Obligations.PulseTrainIsMostSignificantFirst : Prop :=
  ∀ (frame : BitVec 16) (high low : Slot) (shift : Nat) (i : Fin 16),
    (pulseTrain frame high low shift)[i] =
      (if frame.getLsbD (15 - i.val) then high else low) <<< shift

/-! ## TelemetryDecoder (43_telemetry_decoder.md) -/

/-- R130, R131 (derived there): the update depends on the exclusive or of its arguments alone and is
zero exactly when they are equal. -/
def Obligations.CrcUpdateZeroExactlyWhenEqual : Prop :=
  ∀ b seed : BitVec 8, crc8Update b seed = crc8Update (b ^^^ seed) 0 ∧
    (crc8Update b seed = 0 ↔ b = seed)

/-- From R130, T10: `crc8_update` is the exclusive or of one constant for each bit set in the exclusive
or of its arguments. The eight constants are what the polynomial step `0x07` makes of the single bits,
bit 0 first; with them the function is fixed for every byte and seed. -/
def Obligations.CrcUpdateIsFixedByItsBits : Prop :=
  ∀ b seed : BitVec 8,
    crc8Update b seed =
      ([(0, 0x07), (1, 0x0E), (2, 0x1C), (3, 0x38), (4, 0x70), (5, 0xE0), (6, 0xC7),
        (7, 0x89)].map fun bit : Nat × BitVec 8 =>
          if (b ^^^ seed).getLsbD bit.1 then bit.2 else 0).foldl (· ^^^ ·) 0

/-- R131 (derived there): the CRC of ten bytes is zero exactly when the tenth is the CRC of the
first nine. -/
def Obligations.CrcZeroExactlyWhenTrailerMatches : Prop :=
  ∀ buffer : Vector Byte 10, crc8 buffer = 0 ↔ buffer[9] = crcFold 0 (buffer.toList.take 9)

/-- R132: every field of the record as a number. The clause on the temperature rests on two's
complement, which R132 marks as general knowledge (log 13). -/
def Obligations.DecodedRecordFields : Prop :=
  ∀ buffer : Vector Byte 10,
    (decodeTelemetry buffer).temp.toInt =
      (if buffer[0].toNat < 128 then (buffer[0].toNat : Int) else (buffer[0].toNat : Int) - 256) ∧
    (decodeTelemetry buffer).cv.toNat = 256 * buffer[1].toNat + buffer[2].toNat ∧
    (decodeTelemetry buffer).ca.toNat = 256 * buffer[3].toNat + buffer[4].toNat ∧
    (decodeTelemetry buffer).mah.toNat = 256 * buffer[5].toNat + buffer[6].toNat ∧
    (decodeTelemetry buffer).erpm.toNat = 100 * (256 * buffer[7].toNat + buffer[8].toNat) ∧
    (decodeTelemetry buffer).crc = crc8 buffer

/-! ## FrameScheduler (41_frame_scheduler.md) -/

/-- R91: FS_TICK c, its two paths, what it leaves alone, and where it is refused. -/
def Obligations.FsTickComposesTheTrain : Prop :=
  ∀ (s : State) (c : Ch), c.val < s.cfg.nch →
    (s.halted = false → (s.chan c).fsPc = .idle →
      ∃ t, exec (.fsTick c) s = .next t ∧ s.OnlyChannel t c ∧
        ((s.chan c).txBusy = true →
          t.chan c = { s.chan c with sec := (t.chan c).sec, fsPc := .wait } ∧
          ∀ i : Fin 16, (t.chan c).sec[i] =
            (if (frameFrom (commandFrom (s.chan c).code (s.chan c).tlm)).getLsbD (15 - i.val)
              then s.cfg.high else s.cfg.low) <<< s.cfg.shiftOf c) ∧
        ((s.chan c).txBusy = false →
          t.chan c = { s.chan c with
            pri := (t.chan c).pri, cntDirect := (s.chan c).cntDirect + 1, fsPc := .trig } ∧
          ∀ i : Fin 16, (t.chan c).pri[i] =
            (if (frameFrom (commandFrom (s.chan c).code (s.chan c).tlm)).getLsbD (15 - i.val)
              then s.cfg.high else s.cfg.low) <<< s.cfg.shiftOf c)) ∧
    (s.halted = true ∨ (s.chan c).fsPc ≠ .idle → ∃ r, exec (.fsTick c) s = .refused r)

/-- R92: FS_COPY c, in a running block. -/
def Obligations.FsCopyMovesTheBufferedTrain : Prop :=
  ∀ (s : State) (c : Ch), c.val < s.cfg.nch → s.halted = false →
    ((s.chan c).fsPc = .wait → (s.chan c).txBusy = false →
      ∃ t, exec (.fsCopy c) s = .next t ∧ s.OnlyChannel t c ∧
        t.chan c = { s.chan c with
          pri := (t.chan c).pri, cntBuffered := (s.chan c).cntBuffered + 1, fsPc := .trig } ∧
        ∀ i : Fin 16, (t.chan c).pri[i] = (s.chan c).sec[i]) ∧
    ((s.chan c).fsPc ≠ .wait ∨ (s.chan c).txBusy = true →
      ∃ r, exec (.fsCopy c) s = .refused r)

/-- R93: FS_TRIG c, in a running block. -/
def Obligations.FsTrigStartsTheTransfer : Prop :=
  ∀ (s : State) (c : Ch), c.val < s.cfg.nch → s.halted = false →
    ((s.chan c).fsPc = .trig →
      ∃ t slots, exec (.fsTrig c) s = .next t ∧
        s.OnlyChannel { t with out := s.out } c ∧
        t.chan c = { s.chan c with txBusy := true, fsPc := .clr } ∧
        t.out = s.out ++ [(c, slots)] ∧ slots.length = s.cfg.frameSlots ∧
        ∀ j, j < s.cfg.frameSlots →
          slots[j]? = some (if h : j < 16 then (s.chan c).pri[j] else 0)) ∧
    ((s.chan c).fsPc ≠ .trig → ∃ r, exec (.fsTrig c) s = .refused r)

/-- R94: FS_CLR c, in a running block; the flag is cleared whatever it was. -/
def Obligations.FsClrSpendsTheFlag : Prop :=
  ∀ (s : State) (c : Ch), c.val < s.cfg.nch → s.halted = false →
    ((s.chan c).fsPc = .clr →
      ∃ t, exec (.fsClr c) s = .next t ∧ s.OnlyChannel t c ∧
        t.chan c = { s.chan c with tlm := false, fsPc := .idle }) ∧
    ((s.chan c).fsPc ≠ .clr → ∃ r, exec (.fsClr c) s = .refused r)

/-- R95: TX_DONE c, in a running block. -/
def Obligations.TxDoneEndsTheTransfer : Prop :=
  ∀ (s : State) (c : Ch), c.val < s.cfg.nch → s.halted = false →
    ((s.chan c).txBusy = true →
      ∃ t, exec (.txDone c) s = .next t ∧ s.OnlyChannel t c ∧
        t.chan c = { s.chan c with txBusy := false }) ∧
    ((s.chan c).txBusy = false → ∃ r, exec (.txDone c) s = .refused r)

/-- R97 (derived there): no slot of `PRI[c]` is written while a transfer of channel c is in flight,
by any step of the block but a reset. -/
def Obligations.PrimaryUntouchedWhileInFlight : Prop :=
  ∀ (s t : State) (c : Ch), s.NoResetNext → step s = .next t → (s.chan c).txBusy = true →
    ∀ j, (t.chan c).priSlot j = (s.chan c).priSlot j

/-- R91, R96: the train FS_TICK c composes, from the code and the flag as they then are, is the one
pending. -/
def Obligations.TickMakesItsTrainPending : Prop :=
  ∀ (s : State) (c : Ch),
    c.val < s.cfg.nch → s.halted = false → (s.chan c).fsPc = .idle →
      ∃ t, exec (.fsTick c) s = .next t ∧
        t.Pending c (compose (s.chan c).code (s.chan c).tlm s.cfg.high s.cfg.low (s.cfg.shiftOf c))

/-- R96, R192 (derived there): a pending train stays pending, whatever the other agents do (a new
code or flag included) and with nothing sent on its channel meanwhile, until FS_TRIG c sends
exactly it, whole, followed by the zero slots. -/
def Obligations.PendingTrainIsSentWhole : Prop :=
  ∀ (s t : State) (c : Ch) (train : Train), s.NoResetNext → s.Pending c train →
    step s = .next t →
      (t.Pending c train ∧ t.out.filter (fun e => e.1 = c) = s.out.filter (fun e => e.1 = c)) ∨
      (t.out = s.out ++ [(c, paddedTrain train s.cfg.frameSlots)] ∧ (t.chan c).fsPc = .clr ∧
        (t.chan c).txBusy = true)

/-- R101: no scheduler operation or completion writes another channel's state or reads it: what it
leaves in its channel and what it appends to `OUT` depend on the configuration and its channel. -/
def Obligations.ChannelsAreIndependent : Prop :=
  ∀ (c : Ch) (i : Instr),
    i ∈ [Instr.fsTick c, .fsCopy c, .fsTrig c, .fsClr c, .txDone c] →
    ∀ (s s' t : State), exec i s = .next t →
      (∀ k, k ≠ c → t.chan k = s.chan k) ∧
      (s'.cfg = s.cfg → s'.halted = s.halted → s'.chan c = s.chan c →
        ∃ t' d, exec i s' = .next t' ∧ t'.chan c = t.chan c ∧
          t.out = s.out ++ d ∧ t'.out = s'.out ++ d)

/-- R15, R91, R92: each operation that brings a sequencer into TRIG adds one to the sum of the two
write counters (modulo 2^32), and no other operation changes either. -/
def Obligations.OneWriteCountedPerTrain : Prop :=
  ∀ (i : Instr) (s t : State) (c : Ch), exec i s = .next t →
    ((s.chan c).fsPc ≠ .trig → (t.chan c).fsPc = .trig →
      (t.chan c).cntDirect + (t.chan c).cntBuffered =
        (s.chan c).cntDirect + (s.chan c).cntBuffered + 1) ∧
    (¬ ((s.chan c).fsPc ≠ .trig ∧ (t.chan c).fsPc = .trig) →
      (t.chan c).cntDirect = (s.chan c).cntDirect ∧
      (t.chan c).cntBuffered = (s.chan c).cntBuffered)

/-! ## TelemetryRequestCoordinator (42_telemetry_coordinator.md) -/

/-- R111: RQ_TICK: ignored while inactive; on a valid round, with the cursor naming a channel (an
invariant of the block, `State.CursorInRange`), the next channel is asked; refused when halted. What
makes a round valid is R111's test alone (log 26). The invalid round is
`RqTickAbortsAnInvalidRound`. -/
def Obligations.RqTickStartsTheNextRound : Prop :=
  ∀ s : State,
    (s.halted = true → ∃ r, exec .rqTick s = .refused r) ∧
    (s.halted = false → s.tlmActive = false → exec .rqTick s = .next s) ∧
    (s.halted = false → s.tlmActive = true → s.rrIdx.val < s.cfg.nch →
      (∀ c : Ch, c.val < s.cfg.nch → (s.chan c).tlm = false) → s.rxWr = 10 →
      ∃ t, exec .rqTick s = .next t ∧
        t = { s with chans := t.chans, rxWr := 0, rrIdx := t.rrIdx } ∧
        t.rrIdx.val = (s.rrIdx.val + 1) % s.cfg.nch ∧
        (∀ c, t.chan c = { s.chan c with tlm := (t.chan c).tlm }) ∧
        (∀ c : Ch, c.val < s.cfg.nch → (t.chan c).tlm = decide (c = t.rrIdx)) ∧
        ∀ c : Ch, s.cfg.nch ≤ c.val → t.chan c = s.chan c)

/-- R154, R158: RQ_TICK of an active coordinator with a stale flag or a short buffer: every flag
cleared, the coordinator halted, the answer "do not reschedule" given once, nothing else changed. That
the answer is an added 1 in the count `noResched` is the model's form of it (log 10). -/
def Obligations.RqTickAbortsAnInvalidRound : Prop :=
  ∀ s : State, s.halted = false → s.tlmActive = true →
    ((∃ c : Ch, c.val < s.cfg.nch ∧ (s.chan c).tlm = true) ∨ s.rxWr ≠ 10) →
      ∃ t, exec .rqTick s = .next t ∧
        t = { s with
          chans := t.chans, tlmActive := false, rqAbort := true,
          noResched := s.noResched + 1 } ∧
        (∀ c : Ch, c.val < s.cfg.nch → t.chan c = { s.chan c with tlm := false }) ∧
        ∀ c : Ch, s.cfg.nch ≤ c.val → t.chan c = s.chan c

/-- R112: RX_BYTE b: ignored with telemetry disabled, appended below nine bytes, decoded into the
current channel's record at the tenth, refused when halted. The eleventh is
`RxOverflowDropsTheByte`. -/
def Obligations.RxByteAppendsAndDecodes : Prop :=
  ∀ (s : State) (b : Byte),
    (s.halted = true → ∃ r, exec (.rxByte b) s = .refused r) ∧
    (s.halted = false → s.cfg.tlmEn = false → exec (.rxByte b) s = .next s) ∧
    (s.halted = false → s.cfg.tlmEn = true → s.rxWr.val < 10 →
      ∃ t, exec (.rxByte b) s = .next t ∧ t.rxWr.val = s.rxWr.val + 1 ∧
        (∀ k : Fin 10, t.rxBuf[k] = if k.val = s.rxWr.val then b else s.rxBuf[k]) ∧
        (s.rxWr.val < 9 → t = { s with rxBuf := t.rxBuf, rxWr := t.rxWr }) ∧
        (s.rxWr.val = 9 →
          t = { s with
            chans := t.chans, rxBuf := t.rxBuf, rxWr := t.rxWr, lastDec := some s.rrIdx } ∧
          t.chan s.rrIdx = { s.chan s.rrIdx with record := decodeTelemetry t.rxBuf } ∧
          ∀ k, k ≠ s.rrIdx → t.chan k = s.chan k))

/-- R153: a byte for a full buffer is dropped, reported and changes nothing else. -/
def Obligations.RxOverflowDropsTheByte : Prop :=
  ∀ (s : State) (b : Byte), s.halted = false → s.cfg.tlmEn = true → s.rxWr = 10 →
    exec (.rxByte b) s = .next { s with rxOvf := true }

/-- R113: TLM_START. -/
def Obligations.TlmStartActivatesTheCoordinator : Prop :=
  ∀ s : State,
    (s.halted = false → s.cfg.tlmEn = true → s.tlmActive = false →
      ∃ t, exec .tlmStart s = .next t ∧
        t = { s with chans := t.chans, rxWr := 10, rqAbort := false, tlmActive := true } ∧
        (∀ c : Ch, c.val < s.cfg.nch → t.chan c = { s.chan c with tlm := false }) ∧
        ∀ c : Ch, s.cfg.nch ≤ c.val → t.chan c = s.chan c) ∧
    (s.halted = true ∨ s.cfg.tlmEn = false ∨ s.tlmActive = true →
      ∃ r, exec .tlmStart s = .refused r)

/-- R114: ACK_DEC, and that no other operation sets the marker to NONE. -/
def Obligations.AckDecAloneClearsTheMarker : Prop :=
  (∀ s : State,
    (s.halted = false → exec .ackDec s = .next { s with lastDec := none }) ∧
    (s.halted = true → ∃ r, exec .ackDec s = .refused r)) ∧
  ∀ (i : Instr) (s t : State), exec i s = .next t → s.lastDec ≠ none → t.lastDec = none →
    i = .ackDec

/-- R115: CLR_OVF. -/
def Obligations.ClrOvfClearsTheReport : Prop :=
  ∀ s : State,
    (s.halted = false → exec .clrOvf s = .next { s with rxOvf := false }) ∧
    (s.halted = true → ∃ r, exec .clrOvf s = .refused r)

/-- R194 (derived there), as far as R111's test makes it so: between an RQ_TICK that makes c current and
a next one that is valid, whatever else happens, FS_CLR c and at least ten RX_BYTEs happen. Their order
is not tested by R111 and is not claimed (log 26). -/
def Obligations.ValidRoundNeedsASpentFlagAndTenBytes : Prop :=
  ∀ (s s1 s2 s3 : State) (ops : List Instr), s.rrIdx.val < s.cfg.nch →
    exec .rqTick s = .next s1 → s1.tlmActive = true →
    Instr.rqTick ∉ ops → execAll ops s1 = .next s2 →
    exec .rqTick s2 = .next s3 → s3.tlmActive = true →
      Instr.fsClr s1.rrIdx ∈ ops ∧
        ∃ bytes : List Byte, bytes.length = 10 ∧ (bytes.map Instr.rxByte).Sublist ops

/-- R194 (derived there), its first half: when c is IDLE as an RQ_TICK makes it current, the operations
up to a next valid RQ_TICK hold an FS_TICK c that reads the flag as 1, and after it FS_CLR c. -/
def Obligations.ValidRoundReadsTheFlagBeforeSpendingIt : Prop :=
  ∀ (s s1 s2 s3 : State) (ops : List Instr), s.rrIdx.val < s.cfg.nch →
    exec .rqTick s = .next s1 → s1.tlmActive = true → (s1.chan s1.rrIdx).fsPc = .idle →
    Instr.rqTick ∉ ops → execAll ops s1 = .next s2 →
    exec .rqTick s2 = .next s3 → s3.tlmActive = true →
      ∃ before after u, ops = before ++ .fsTick s1.rrIdx :: after ∧
        execAll before s1 = .next u ∧ (u.chan s1.rrIdx).tlm = true ∧
        Instr.fsClr s1.rrIdx ∈ after

/-- From R91 to R95, R112: RX_BYTE may change places with a scheduler operation or a completion before
it, and the state after both is the same, in every register. So no state of the block tells whether
the bytes of a round came before or after its FS_CLR (log 26). -/
def Obligations.BytesAndTicksCommute : Prop :=
  ∀ (c : Ch) (b : Byte) (i : Instr),
    i ∈ [Instr.fsTick c, .fsCopy c, .fsTrig c, .fsClr c, .txDone c] →
    ∀ s u t : State, exec i s = .next u → exec (.rxByte b) u = .next t →
      ∃ u', exec (.rxByte b) s = .next u' ∧ exec i u' = .next t

/-- R19, R111: after a reset and TLM_START the first RQ_TICK asks channel 0, whatever the
configuration and the unspecified contents. -/
def Obligations.FirstRoundAsksChannelZero : Prop :=
  ∀ (cfg : Config) (u : PowerUp),
    16000 ≤ cfg.tFsUs * cfg.speedKhz → 1 ≤ cfg.nch → cfg.tlmEn = true →
      ∃ s1 s2, exec .tlmStart (State.resetWith cfg u) = .next s1 ∧
        exec .rqTick s1 = .next s2 ∧ s2.rrIdx = 0 ∧ s2.rxWr = 0 ∧ s2.tlmActive = true ∧
        (s2.chan 0).tlm = true ∧ ∀ c : Ch, c ≠ 0 → (s2.chan c).tlm = false

/-- R185 (derived there): a valid RQ_TICK that makes c current between FS_TRIG c and FS_CLR c is
lost: FS_CLR c clears the flag unsent, and the next RQ_TICK halts the coordinator. -/
def Obligations.RequestInsideATickIsLost : Prop :=
  ∀ (s : State) (c : Ch), s.halted = false → s.tlmActive = true → s.rrIdx.val < s.cfg.nch →
    c.val = (s.rrIdx.val + 1) % s.cfg.nch → (s.chan c).fsPc = .clr →
    (∀ k : Ch, k.val < s.cfg.nch → (s.chan k).tlm = false) → s.rxWr = 10 →
      ∃ s1 s2 s3, exec .rqTick s = .next s1 ∧ (s1.chan c).tlm = true ∧
        exec (.fsClr c) s1 = .next s2 ∧ (s2.chan c).tlm = false ∧ s2.out = s.out ∧
        exec .rqTick s2 = .next s3 ∧ s3.tlmActive = false ∧ s3.rqAbort = true

/-! ## Host access (44_host_access.md) -/

/-- R140: SET_CODE c, v. -/
def Obligations.SetCodeWritesTheCode : Prop :=
  ∀ (s : State) (c : Ch) (v : BitVec 16), c.val < s.cfg.nch →
    (s.halted = false → v.toNat ≤ 2047 →
      ∃ t, exec (.setCode c v) s = .next t ∧ s.OnlyChannel t c ∧
        t.chan c = { s.chan c with code := v }) ∧
    (s.halted = true ∨ 2047 < v.toNat → ∃ r, exec (.setCode c v) s = .refused r)

/-- R141: SET_TLM c, v. -/
def Obligations.SetTlmWritesTheFlag : Prop :=
  ∀ (s : State) (c : Ch) (v : Bool), c.val < s.cfg.nch →
    (s.halted = false → s.tlmActive = false →
      ∃ t, exec (.setTlm c v) s = .next t ∧ s.OnlyChannel t c ∧
        t.chan c = { s.chan c with tlm := v }) ∧
    (s.halted = true ∨ s.tlmActive = true → ∃ r, exec (.setTlm c v) s = .refused r)

/-- R142, R143: what RD returns for each per-channel register that is no buffer slot, halted or not;
no register changes. That the value goes into the list `rdOut` is the model's choice (log 9). -/
def Obligations.RdReturnsChannelRegisters : Prop :=
  ∀ (s : State) (c : Ch), c.val < s.cfg.nch →
    ∀ row ∈ [((0x00 : Byte), (s.chan c).code.toNat), (0x01, (s.chan c).tlm.toNat),
        (0x03, (s.chan c).txBusy.toNat), (0x04, (s.chan c).cntDirect.toNat),
        (0x05, (s.chan c).cntBuffered.toNat), (0x09, (s.chan c).record.cv.toNat),
        (0x0A, (s.chan c).record.ca.toNat), (0x0B, (s.chan c).record.mah.toNat),
        (0x0C, (s.chan c).record.erpm.toNat), (0x0D, (s.chan c).record.crc.toNat),
        (0x02, match (s.chan c).fsPc with | .idle => 0 | .wait => 1 | .trig => 2 | .clr => 3)],
      exec (.rd c row.1) s = .next { s with rdOut := s.rdOut ++ [BitVec.ofNat 32 row.2] }

/-- R142: RD of `REC[c].TEMP` returns it sign-extended (as its bits are read in R132; log 13). -/
def Obligations.RdSignExtendsTheTemperature : Prop :=
  ∀ (s : State) (c : Ch), c.val < s.cfg.nch →
    ∃ v : Slot, exec (.rd c 0x08) s = .next { s with rdOut := s.rdOut ++ [v] } ∧
      v.toInt = (s.chan c).record.temp.toInt

/-- R13, R14, R142, R143: RD of a buffer slot below `FRAME_SLOTS`; slots 16 to 19 read as 0. -/
def Obligations.RdReturnsBufferSlots : Prop :=
  ∀ (s : State) (c : Ch) (i : Nat), c.val < s.cfg.nch → i < s.cfg.frameSlots →
    exec (.rd c (BitVec.ofNat 8 (0x20 + i))) s =
      .next { s with rdOut := s.rdOut ++ [if h : i < 16 then (s.chan c).pri[i] else 0] } ∧
    exec (.rd c (BitVec.ofNat 8 (0x40 + i))) s =
      .next { s with rdOut := s.rdOut ++ [if h : i < 16 then (s.chan c).sec[i] else 0] }

/-- R142, R143: RD of the global registers, in every state, halted or not. -/
def Obligations.RdReturnsGlobalRegisters : Prop :=
  ∀ s : State,
    exec (.rd 0 0x80) s = .next { s with rdOut := s.rdOut ++ [s.status] } ∧
    exec (.rd 0 0x81) s = .next { s with rdOut := s.rdOut ++ [BitVec.ofNat 32 s.rrIdx.val] } ∧
    exec (.rd 0 0x82) s = .next { s with rdOut := s.rdOut ++ [BitVec.ofNat 32 s.rxWr.val] } ∧
    ∀ k : Fin 10, exec (.rd 0 (BitVec.ofNat 8 (0x90 + k.val))) s =
      .next { s with rdOut := s.rdOut ++ [BitVec.ofNat 32 s.rxBuf[k].toNat] }

/-- R142: where RD is refused: a number that names no register, a slot not below `FRAME_SLOTS`, a
global register with CH not 0, a per-channel register with CH not below `NCH`. -/
def Obligations.RdIsRefusedWithoutARegister : Prop :=
  ∀ (s : State) (c : Ch) (r : Byte),
    (r.toNat = 0x06 ∨ r.toNat = 0x07 ∨ (0x0E ≤ r.toNat ∧ r.toNat < 0x20) ∨
        (0x34 ≤ r.toNat ∧ r.toNat < 0x40) ∨ (0x54 ≤ r.toNat ∧ r.toNat < 0x80) ∨
        (0x83 ≤ r.toNat ∧ r.toNat < 0x90) ∨ 0x9A ≤ r.toNat →
      ∃ why, exec (.rd c r) s = .refused why) ∧
    ((0x20 + s.cfg.frameSlots ≤ r.toNat ∧ r.toNat < 0x40) ∨
        (0x40 + s.cfg.frameSlots ≤ r.toNat ∧ r.toNat < 0x80) →
      ∃ why, exec (.rd c r) s = .refused why) ∧
    (0x80 ≤ r.toNat → c ≠ 0 → ∃ why, exec (.rd c r) s = .refused why) ∧
    (r.toNat < 0x80 → s.cfg.nch ≤ c.val → ∃ why, exec (.rd c r) s = .refused why)

/-- R144: the layout of `STATUS`. -/
def Obligations.StatusLayout : Prop :=
  ∀ s : State,
    s.status.getLsbD 0 = s.cfgErrIvl ∧ s.status.getLsbD 1 = s.cfgErrNch ∧
    s.status.getLsbD 2 = s.tlmActive ∧ s.status.getLsbD 3 = s.rqAbort ∧
    s.status.getLsbD 4 = s.rxOvf ∧ s.status.extractLsb' 5 3 = 0 ∧
    (s.status.extractLsb' 8 5).toNat =
      (match s.lastDec with | none => 0x1F | some c => c.val) ∧
    s.status.extractLsb' 13 19 = 0

/-! ## Reset and the configuration (70_reset_and_hazards.md, 60_exceptions.md) -/

/-- R30: a reset, in any state, with any configuration and any unspecified contents, leaves the
registers as the table says. -/
def Obligations.ResetLeavesTheStatedValues : Prop :=
  ∀ (s : State) (cfg : Config) (u : PowerUp) (rest : List Input),
    s.inputs = .reset cfg u :: rest →
      ∃ t, step s = .next t ∧ t.cfg = cfg ∧
        (∀ c, (t.chan c).code = 0 ∧ (t.chan c).tlm = false ∧ (t.chan c).cntDirect = 0 ∧
          (t.chan c).cntBuffered = 0 ∧ (t.chan c).fsPc = .idle ∧ (t.chan c).txBusy = false ∧
          (t.chan c).pri = u.chans[c].pri ∧ (t.chan c).sec = u.chans[c].sec ∧
          (t.chan c).record = u.chans[c].record ∧
          ∀ j, 16 ≤ j → (t.chan c).priSlot j = 0 ∧ (t.chan c).secSlot j = 0) ∧
        t.rrIdx.val = cfg.nch - 1 ∧ t.rxBuf = u.rxBuf ∧ t.rxWr = 10 ∧ t.lastDec = none ∧
        t.tlmActive = false ∧ t.rxOvf = false ∧ t.rqAbort = false ∧ t.out = [] ∧
        (t.cfgErrIvl = true ↔ cfg.tFsUs * cfg.speedKhz < 16000) ∧
        (t.cfgErrNch = true ↔ cfg.nch < 1)

/-- R26, R181: the error bits are those of the configuration at reset; no operation changes them or
a parameter; and while either is 1 every operation but RD is refused. -/
def Obligations.ConfigurationErrorsHaltTheBlock : Prop :=
  (∀ (cfg : Config) (u : PowerUp),
    ((State.resetWith cfg u).cfgErrIvl = true ↔ cfg.tFsUs * cfg.speedKhz < 16000) ∧
    ((State.resetWith cfg u).cfgErrNch = true ↔ cfg.nch < 1)) ∧
  (∀ (i : Instr) (s t : State), exec i s = .next t →
    t.cfg = s.cfg ∧ t.cfgErrIvl = s.cfgErrIvl ∧ t.cfgErrNch = s.cfgErrNch) ∧
  ∀ (i : Instr) (s : State), s.cfgErrIvl = true ∨ s.cfgErrNch = true →
    (∀ c r, i ≠ .rd c r) → ∃ why, exec i s = .refused why

/-- R26, R151: a halted block only answers reads; nothing else of it ever changes but by a reset. -/
def Obligations.HaltedBlockOnlyAnswersReads : Prop :=
  ∀ s t : State, s.halted = true → s.NoResetNext → step s = .next t →
    t = { s with rdOut := t.rdOut, inputs := t.inputs }

/-- R5, R152: parameters outside the domain cannot be built into a configuration, and the others
can. -/
def Obligations.ConfigurationsOutsideTheDomainAreRefused : Prop :=
  ∀ p : Params,
    ((16 < p.nch ∨ p.speedKhz = 0 ∨ (p.frameSlots ≠ 16 ∧ p.frameSlots ≠ 20) ∨
        (∃ k ∈ p.shift, k ≠ 0 ∧ k ≠ 16) ∨
        (16 ∈ p.shift ∧ (65536 ≤ p.high.toNat ∨ 65536 ≤ p.low.toNat))) →
      Config.build? p = none) ∧
    (p.nch ≤ 16 → 1 ≤ p.speedKhz → p.frameSlots = 16 ∨ p.frameSlots = 20 →
      p.shift.length = p.nch → (∀ k ∈ p.shift, k = 0 ∨ k = 16) →
      (16 ∈ p.shift → p.high.toNat < 65536 ∧ p.low.toNat < 65536) →
      ∃ cfg, Config.build? p = some cfg ∧ cfg.toParams = p)

/-! ## The whole machine -/

/-- R31: every step keeps the invariants, from every state that has them. -/
def Obligations.StepKeepsTheInvariants : Prop :=
  ∀ s t : State, s.Inv → step s = .next t → t.Inv

/-- R31: the invariants hold after every reset, whatever the configuration and the contents. -/
def Obligations.ResetHasTheInvariants : Prop :=
  (∀ (cfg : Config) (u : PowerUp), (State.resetWith cfg u).Inv) ∧ State.reset.Inv

/-- R42, R160: nothing the block does ends in a fault; an error condition is a change of state. -/
def Obligations.NoStepFaults : Prop :=
  (∀ (i : Instr) (s : State) (f : Fault), exec i s ≠ .fault f) ∧
  ∀ (s : State) (f : Fault), step s ≠ .fault f

/-- R13, R14, R20, R163: which operation writes which buffer. Every slot of `PRI` and `SEC` and
every byte of `RX_BUF` reads after an operation as before it, but for slots 0 to 15 of the buffer
FS_TICK or FS_COPY of that channel writes and the byte at `RX_WR` for RX_BYTE. -/
def Obligations.BuffersChangeOnlyByTheirWriters : Prop :=
  ∀ (i : Instr) (s t : State), exec i s = .next t →
    (∀ (c : Ch) (j : Nat), (t.chan c).priSlot j ≠ (s.chan c).priSlot j →
      j < 16 ∧ (s.chan c).txBusy = false ∧ (i = .fsTick c ∨ i = .fsCopy c)) ∧
    (∀ (c : Ch) (j : Nat), (t.chan c).secSlot j ≠ (s.chan c).secSlot j →
      j < 16 ∧ (s.chan c).txBusy = true ∧ i = .fsTick c) ∧
    ∀ k : Fin 10, t.rxBuf[k] ≠ s.rxBuf[k] → k.val = s.rxWr.val ∧ ∃ b, i = .rxByte b

/-- R11, R12, R15, R16, R18, R19, R21 to R26, R28, R163 (derived there): which operation changes which
register, and how. The buffers and the records, which are left out here, are
`BuffersChangeOnlyByTheirWriters` and `RecordsComeOnlyFromWholeResponses`; the list of answers is the
model's (log 9). -/
def Obligations.RegistersChangeOnlyByTheirWriters : Prop :=
  ∀ (i : Instr) (s t : State), exec i s = .next t →
    (∀ c, (t.chan c).code ≠ (s.chan c).code →
      i = .setCode c (t.chan c).code ∧ (t.chan c).code.toNat ≤ 2047) ∧
    (∀ c, (s.chan c).tlm = false → (t.chan c).tlm = true →
      (i = .rqTick ∧ c = t.rrIdx ∧ s.tlmActive = true) ∨
        (i = .setTlm c true ∧ s.tlmActive = false)) ∧
    (∀ c, (s.chan c).tlm = true → (t.chan c).tlm = false →
      i = .fsClr c ∨ (i = .rqTick ∧ s.tlmActive = true) ∨ i = .tlmStart ∨
        (i = .setTlm c false ∧ s.tlmActive = false)) ∧
    (∀ c, (t.chan c).cntDirect ≠ (s.chan c).cntDirect →
      i = .fsTick c ∧ (s.chan c).txBusy = false ∧
        (t.chan c).cntDirect = (s.chan c).cntDirect + 1) ∧
    (∀ c, (t.chan c).cntBuffered ≠ (s.chan c).cntBuffered →
      i = .fsCopy c ∧ (t.chan c).cntBuffered = (s.chan c).cntBuffered + 1) ∧
    (∀ c, (t.chan c).fsPc ≠ (s.chan c).fsPc →
      (i = .fsTick c ∧ (s.chan c).fsPc = .idle ∧
        (t.chan c).fsPc = if (s.chan c).txBusy then .wait else .trig) ∨
      (i = .fsCopy c ∧ (s.chan c).fsPc = .wait ∧ (t.chan c).fsPc = .trig) ∨
      (i = .fsTrig c ∧ (s.chan c).fsPc = .trig ∧ (t.chan c).fsPc = .clr) ∨
      (i = .fsClr c ∧ (s.chan c).fsPc = .clr ∧ (t.chan c).fsPc = .idle)) ∧
    (∀ c, (s.chan c).txBusy = false → (t.chan c).txBusy = true → i = .fsTrig c) ∧
    (∀ c, (s.chan c).txBusy = true → (t.chan c).txBusy = false → i = .txDone c) ∧
    (t.rrIdx ≠ s.rrIdx → i = .rqTick ∧ s.tlmActive = true ∧ t.rrIdx = s.nextIndex) ∧
    (t.rxWr ≠ s.rxWr →
      (i = .rqTick ∧ s.tlmActive = true ∧ t.rxWr = 0) ∨
      (∃ b, i = .rxByte b ∧ t.rxWr.val = s.rxWr.val + 1) ∨ (i = .tlmStart ∧ t.rxWr = 10)) ∧
    (t.lastDec ≠ s.lastDec →
      (i = .ackDec ∧ t.lastDec = none) ∨
        ∃ b, i = .rxByte b ∧ s.rxWr = 9 ∧ t.lastDec = some s.rrIdx) ∧
    (s.tlmActive = false → t.tlmActive = true → i = .tlmStart) ∧
    (s.tlmActive = true → t.tlmActive = false → i = .rqTick ∧ t.rqAbort = true) ∧
    (s.rqAbort = false → t.rqAbort = true → i = .rqTick) ∧
    (s.rqAbort = true → t.rqAbort = false → i = .tlmStart) ∧
    (s.rxOvf = false → t.rxOvf = true → ∃ b, i = .rxByte b ∧ s.rxWr = 10) ∧
    (s.rxOvf = true → t.rxOvf = false → i = .clrOvf) ∧
    t.cfgErrIvl = s.cfgErrIvl ∧ t.cfgErrNch = s.cfgErrNch ∧
    (t.out ≠ s.out → ∃ c slots, i = .fsTrig c ∧ t.out = s.out ++ [(c, slots)]) ∧
    (t.rdOut ≠ s.rdOut → ∃ c r v, i = .rd c r ∧ t.rdOut = s.rdOut ++ [v])

/-- R17, R117 (derived there): a record changes only by an RX_BYTE that brings `RX_WR` from 9 to 10,
for the current channel, and then it is the decoding of the ten bytes, its ERPM a multiple of 100
and at most 6 553 500. -/
def Obligations.RecordsComeOnlyFromWholeResponses : Prop :=
  ∀ (i : Instr) (s t : State) (c : Ch), exec i s = .next t →
    (t.chan c).record ≠ (s.chan c).record →
      (∃ b, i = .rxByte b) ∧ c = s.rrIdx ∧ s.rxWr = 9 ∧ t.rxWr = 10 ∧
        (t.chan c).record = decodeTelemetry t.rxBuf ∧ t.lastDec = some c ∧
        (t.chan c).record.erpm.toNat % 100 = 0 ∧ (t.chan c).record.erpm.toNat ≤ 6553500

/-- R67, R196: with nothing presented an enabled internal operation of a running block fires by
itself, at the next step; which one is a free value, so this holds for every choice; with none
enabled nothing happens. Presenting and choosing this way are the model's (logs 5 and 6). -/
def Obligations.EnabledInternalOperationFires : Prop :=
  ∀ s : State, s.inputs = [] →
    ((∀ c : Ch, c.val < s.cfg.nch → s.internalOp? c = none) ∨ s.halted = true →
      step s = .next s) ∧
    (s.halted = false → (∃ c : Ch, c.val < s.cfg.nch ∧ s.internalOp? c ≠ none) →
      ∃ c i t, c.val < s.cfg.nch ∧ s.internalOp? c = some i ∧
        exec i s.countDraw = .next t ∧ step s = .next t)

/-- R67, R196: with nothing presented each step of a running block performs one of the internal
operations its sequencers have before them and leaves exactly one fewer, so that there are as many
such steps as operations, at most three for each channel and in whatever order the free choice takes;
with none before it the block rests: every channel is IDLE or waits for its engine (logs 5 and 6). -/
def Obligations.InternalOperationsRunOut : Prop :=
  ∀ s : State, s.inputs = [] → s.halted = false →
    s.pendingOps ≤ 48 ∧
    (∀ n, s.pendingOps = n + 1 →
      ∃ t, step s = .next t ∧ t.inputs = [] ∧ t.halted = false ∧ t.pendingOps = n ∧
        ∃ c i, c.val < s.cfg.nch ∧ s.internalOp? c = some i ∧ exec i s.countDraw = .next t) ∧
    (s.pendingOps = 0 → step s = .next s ∧
      ∀ c : Ch, c.val < s.cfg.nch →
        (s.chan c).fsPc = .idle ∨ ((s.chan c).fsPc = .wait ∧ (s.chan c).txBusy = true)) ∧
    ∃ t : State, Sys2Proof.core.run s.pendingOps s = .next t ∧ t.pendingOps = 0
end

