-- ==== Sys2Proof/Laws/State.lean ====
section
/-! SUPPORT. One lemma per field per update of the state, true by rfl, so that no later proof
unfolds a record update. -/

namespace Sys2Proof.Machine

/-! ## One channel -/

@[simp] theorem State.chan_setChan_self (s : State) (c : Ch) (ch : Channel) :
    (s.setChan c ch).chan c = ch := by
  simp [State.chan, State.setChan]

theorem State.chan_setChan_of_ne (s : State) (ch : Channel) {c k : Ch} (h : k ≠ c) :
    (s.setChan c ch).chan k = s.chan k := by
  have : c.val ≠ k.val := fun e => h (Fin.ext e.symm)
  simp [State.chan, State.setChan, this]

/-- Reading a channel after writing one. -/
theorem State.chan_setChan (s : State) (ch : Channel) (c k : Ch) :
    (s.setChan c ch).chan k = if k = c then ch else s.chan k := by
  by_cases h : k = c
  · subst h; simp
  · simp [h, State.chan_setChan_of_ne]

/-- Channels are equal exactly when they read equal. -/
theorem State.chans_ext {s t : State} (h : ∀ c, s.chan c = t.chan c) : s.chans = t.chans :=
  Vector.ext fun i hi => h ⟨i, hi⟩

/-- Writing back what a channel holds changes nothing. -/
@[simp] theorem State.setChan_chan (s : State) (c : Ch) : s.setChan c (s.chan c) = s := by
  have : (s.setChan c (s.chan c)).chans = s.chans :=
    State.chans_ext fun k => by rw [State.chan_setChan]; split <;> simp_all
  calc s.setChan c (s.chan c) = { s with chans := (s.setChan c (s.chan c)).chans } := rfl
    _ = s := by rw [this]

/-- The later of two writes to one channel stays. -/
@[simp] theorem State.setChan_setChan_self (s : State) (c : Ch) (x y : Channel) :
    (s.setChan c x).setChan c y = s.setChan c y := by
  have : ((s.setChan c x).setChan c y).chans = (s.setChan c y).chans :=
    State.chans_ext fun j => by simp only [State.chan_setChan]; split_ifs <;> simp_all
  calc (s.setChan c x).setChan c y
      = { s with chans := ((s.setChan c x).setChan c y).chans } := rfl
    _ = s.setChan c y := by rw [this]; rfl

/-- Writes to two channels may change places. -/
theorem State.setChan_comm (s : State) {c k : Ch} (x y : Channel) (h : k ≠ c) :
    (s.setChan c x).setChan k y = (s.setChan k y).setChan c x := by
  have : ((s.setChan c x).setChan k y).chans = ((s.setChan k y).setChan c x).chans :=
    State.chans_ext fun j => by simp only [State.chan_setChan]; split_ifs <;> simp_all
  calc (s.setChan c x).setChan k y
      = { s with chans := ((s.setChan c x).setChan k y).chans } := rfl
    _ = (s.setChan k y).setChan c x := by rw [this]; rfl

theorem State.chan_setTlm (s : State) (c k : Ch) (v : Bool) :
    (s.setTlm c v).chan k = if k = c then { s.chan c with tlm := v } else s.chan k :=
  s.chan_setChan _ c k

/-- Every flag of an existing channel is 0 after `clearFlags`; nothing else of a channel changes. -/
theorem State.chan_clearFlags (s : State) (c : Ch) :
    s.clearFlags.chan c = if c.val < s.cfg.nch then { s.chan c with tlm := false } else s.chan c := by
  simp [State.clearFlags, State.chan]

/-! ## setChan -/

@[simp] theorem State.setChan_cfg (s : State) (c : Ch) (ch : Channel) :
    (s.setChan c ch).cfg = s.cfg := rfl

@[simp] theorem State.setChan_rrIdx (s : State) (c : Ch) (ch : Channel) :
    (s.setChan c ch).rrIdx = s.rrIdx := rfl

@[simp] theorem State.setChan_rxBuf (s : State) (c : Ch) (ch : Channel) :
    (s.setChan c ch).rxBuf = s.rxBuf := rfl

@[simp] theorem State.setChan_rxWr (s : State) (c : Ch) (ch : Channel) :
    (s.setChan c ch).rxWr = s.rxWr := rfl

@[simp] theorem State.setChan_lastDec (s : State) (c : Ch) (ch : Channel) :
    (s.setChan c ch).lastDec = s.lastDec := rfl

@[simp] theorem State.setChan_tlmActive (s : State) (c : Ch) (ch : Channel) :
    (s.setChan c ch).tlmActive = s.tlmActive := rfl

@[simp] theorem State.setChan_rxOvf (s : State) (c : Ch) (ch : Channel) :
    (s.setChan c ch).rxOvf = s.rxOvf := rfl

@[simp] theorem State.setChan_rqAbort (s : State) (c : Ch) (ch : Channel) :
    (s.setChan c ch).rqAbort = s.rqAbort := rfl

@[simp] theorem State.setChan_cfgErrIvl (s : State) (c : Ch) (ch : Channel) :
    (s.setChan c ch).cfgErrIvl = s.cfgErrIvl := rfl

@[simp] theorem State.setChan_cfgErrNch (s : State) (c : Ch) (ch : Channel) :
    (s.setChan c ch).cfgErrNch = s.cfgErrNch := rfl

@[simp] theorem State.setChan_out (s : State) (c : Ch) (ch : Channel) :
    (s.setChan c ch).out = s.out := rfl

@[simp] theorem State.setChan_rdOut (s : State) (c : Ch) (ch : Channel) :
    (s.setChan c ch).rdOut = s.rdOut := rfl

@[simp] theorem State.setChan_noResched (s : State) (c : Ch) (ch : Channel) :
    (s.setChan c ch).noResched = s.noResched := rfl

@[simp] theorem State.setChan_inputs (s : State) (c : Ch) (ch : Channel) :
    (s.setChan c ch).inputs = s.inputs := rfl

@[simp] theorem State.setChan_freeDraws (s : State) (c : Ch) (ch : Channel) :
    (s.setChan c ch).freeDraws = s.freeDraws := rfl

/-! ## setTlm -/

@[simp] theorem State.setTlm_cfg (s : State) (c : Ch) (v : Bool) :
    (s.setTlm c v).cfg = s.cfg := rfl

@[simp] theorem State.setTlm_rrIdx (s : State) (c : Ch) (v : Bool) :
    (s.setTlm c v).rrIdx = s.rrIdx := rfl

@[simp] theorem State.setTlm_rxBuf (s : State) (c : Ch) (v : Bool) :
    (s.setTlm c v).rxBuf = s.rxBuf := rfl

@[simp] theorem State.setTlm_rxWr (s : State) (c : Ch) (v : Bool) :
    (s.setTlm c v).rxWr = s.rxWr := rfl

@[simp] theorem State.setTlm_lastDec (s : State) (c : Ch) (v : Bool) :
    (s.setTlm c v).lastDec = s.lastDec := rfl

@[simp] theorem State.setTlm_tlmActive (s : State) (c : Ch) (v : Bool) :
    (s.setTlm c v).tlmActive = s.tlmActive := rfl

@[simp] theorem State.setTlm_rxOvf (s : State) (c : Ch) (v : Bool) :
    (s.setTlm c v).rxOvf = s.rxOvf := rfl

@[simp] theorem State.setTlm_rqAbort (s : State) (c : Ch) (v : Bool) :
    (s.setTlm c v).rqAbort = s.rqAbort := rfl

@[simp] theorem State.setTlm_cfgErrIvl (s : State) (c : Ch) (v : Bool) :
    (s.setTlm c v).cfgErrIvl = s.cfgErrIvl := rfl

@[simp] theorem State.setTlm_cfgErrNch (s : State) (c : Ch) (v : Bool) :
    (s.setTlm c v).cfgErrNch = s.cfgErrNch := rfl

@[simp] theorem State.setTlm_out (s : State) (c : Ch) (v : Bool) :
    (s.setTlm c v).out = s.out := rfl

@[simp] theorem State.setTlm_rdOut (s : State) (c : Ch) (v : Bool) :
    (s.setTlm c v).rdOut = s.rdOut := rfl

@[simp] theorem State.setTlm_noResched (s : State) (c : Ch) (v : Bool) :
    (s.setTlm c v).noResched = s.noResched := rfl

@[simp] theorem State.setTlm_inputs (s : State) (c : Ch) (v : Bool) :
    (s.setTlm c v).inputs = s.inputs := rfl

@[simp] theorem State.setTlm_freeDraws (s : State) (c : Ch) (v : Bool) :
    (s.setTlm c v).freeDraws = s.freeDraws := rfl

/-! ## clearFlags -/

@[simp] theorem State.clearFlags_cfg (s : State) : (s.clearFlags).cfg = s.cfg := rfl

@[simp] theorem State.clearFlags_rrIdx (s : State) : (s.clearFlags).rrIdx = s.rrIdx := rfl

@[simp] theorem State.clearFlags_rxBuf (s : State) : (s.clearFlags).rxBuf = s.rxBuf := rfl

@[simp] theorem State.clearFlags_rxWr (s : State) : (s.clearFlags).rxWr = s.rxWr := rfl

@[simp] theorem State.clearFlags_lastDec (s : State) : (s.clearFlags).lastDec = s.lastDec := rfl

@[simp] theorem State.clearFlags_tlmActive (s : State) :
    (s.clearFlags).tlmActive = s.tlmActive := rfl

@[simp] theorem State.clearFlags_rxOvf (s : State) : (s.clearFlags).rxOvf = s.rxOvf := rfl

@[simp] theorem State.clearFlags_rqAbort (s : State) : (s.clearFlags).rqAbort = s.rqAbort := rfl

@[simp] theorem State.clearFlags_cfgErrIvl (s : State) :
    (s.clearFlags).cfgErrIvl = s.cfgErrIvl := rfl

@[simp] theorem State.clearFlags_cfgErrNch (s : State) :
    (s.clearFlags).cfgErrNch = s.cfgErrNch := rfl

@[simp] theorem State.clearFlags_out (s : State) : (s.clearFlags).out = s.out := rfl

@[simp] theorem State.clearFlags_rdOut (s : State) : (s.clearFlags).rdOut = s.rdOut := rfl

@[simp] theorem State.clearFlags_noResched (s : State) :
    (s.clearFlags).noResched = s.noResched := rfl

@[simp] theorem State.clearFlags_inputs (s : State) : (s.clearFlags).inputs = s.inputs := rfl

@[simp] theorem State.clearFlags_freeDraws (s : State) :
    (s.clearFlags).freeDraws = s.freeDraws := rfl

/-! ## activate -/

theorem State.activate_chan (s : State) (c : Ch) : (s.activate).chan c = s.clearFlags.chan c := rfl

@[simp] theorem State.activate_cfg (s : State) : (s.activate).cfg = s.cfg := rfl

@[simp] theorem State.activate_rrIdx (s : State) : (s.activate).rrIdx = s.rrIdx := rfl

@[simp] theorem State.activate_rxBuf (s : State) : (s.activate).rxBuf = s.rxBuf := rfl

@[simp] theorem State.activate_rxWr (s : State) : (s.activate).rxWr = 10 := rfl

@[simp] theorem State.activate_lastDec (s : State) : (s.activate).lastDec = s.lastDec := rfl

@[simp] theorem State.activate_tlmActive (s : State) : (s.activate).tlmActive = true := rfl

@[simp] theorem State.activate_rxOvf (s : State) : (s.activate).rxOvf = s.rxOvf := rfl

@[simp] theorem State.activate_rqAbort (s : State) : (s.activate).rqAbort = false := rfl

@[simp] theorem State.activate_cfgErrIvl (s : State) : (s.activate).cfgErrIvl = s.cfgErrIvl := rfl

@[simp] theorem State.activate_cfgErrNch (s : State) : (s.activate).cfgErrNch = s.cfgErrNch := rfl

@[simp] theorem State.activate_out (s : State) : (s.activate).out = s.out := rfl

@[simp] theorem State.activate_rdOut (s : State) : (s.activate).rdOut = s.rdOut := rfl

@[simp] theorem State.activate_noResched (s : State) : (s.activate).noResched = s.noResched := rfl

@[simp] theorem State.activate_inputs (s : State) : (s.activate).inputs = s.inputs := rfl

@[simp] theorem State.activate_freeDraws (s : State) : (s.activate).freeDraws = s.freeDraws := rfl

/-! ## clearOverflow -/

@[simp] theorem State.clearOverflow_chan (s : State) (c : Ch) : (s.clearOverflow).chan c = s.chan c := rfl

@[simp] theorem State.clearOverflow_cfg (s : State) : (s.clearOverflow).cfg = s.cfg := rfl

@[simp] theorem State.clearOverflow_rrIdx (s : State) : (s.clearOverflow).rrIdx = s.rrIdx := rfl

@[simp] theorem State.clearOverflow_rxBuf (s : State) : (s.clearOverflow).rxBuf = s.rxBuf := rfl

@[simp] theorem State.clearOverflow_rxWr (s : State) : (s.clearOverflow).rxWr = s.rxWr := rfl

@[simp] theorem State.clearOverflow_lastDec (s : State) :
    (s.clearOverflow).lastDec = s.lastDec := rfl

@[simp] theorem State.clearOverflow_tlmActive (s : State) :
    (s.clearOverflow).tlmActive = s.tlmActive := rfl

@[simp] theorem State.clearOverflow_rxOvf (s : State) : (s.clearOverflow).rxOvf = false := rfl

@[simp] theorem State.clearOverflow_rqAbort (s : State) :
    (s.clearOverflow).rqAbort = s.rqAbort := rfl

@[simp] theorem State.clearOverflow_cfgErrIvl (s : State) :
    (s.clearOverflow).cfgErrIvl = s.cfgErrIvl := rfl

@[simp] theorem State.clearOverflow_cfgErrNch (s : State) :
    (s.clearOverflow).cfgErrNch = s.cfgErrNch := rfl

@[simp] theorem State.clearOverflow_out (s : State) : (s.clearOverflow).out = s.out := rfl

@[simp] theorem State.clearOverflow_rdOut (s : State) : (s.clearOverflow).rdOut = s.rdOut := rfl

@[simp] theorem State.clearOverflow_noResched (s : State) :
    (s.clearOverflow).noResched = s.noResched := rfl

@[simp] theorem State.clearOverflow_inputs (s : State) :
    (s.clearOverflow).inputs = s.inputs := rfl

@[simp] theorem State.clearOverflow_freeDraws (s : State) :
    (s.clearOverflow).freeDraws = s.freeDraws := rfl

/-! ## appendByte -/

@[simp] theorem State.appendByte_chan (s : State) (b : Byte) (h : s.rxWr.val < rxCap) (c : Ch) : (s.appendByte b h).chan c = s.chan c := rfl

@[simp] theorem State.appendByte_cfg (s : State) (b : Byte) (h : s.rxWr.val < rxCap) :
    (s.appendByte b h).cfg = s.cfg := rfl

@[simp] theorem State.appendByte_rrIdx (s : State) (b : Byte) (h : s.rxWr.val < rxCap) :
    (s.appendByte b h).rrIdx = s.rrIdx := rfl

@[simp] theorem State.appendByte_rxBuf (s : State) (b : Byte) (h : s.rxWr.val < rxCap) :
    (s.appendByte b h).rxBuf = s.rxBuf.set s.rxWr.val b h := rfl

@[simp] theorem State.appendByte_rxWr (s : State) (b : Byte) (h : s.rxWr.val < rxCap) :
    (s.appendByte b h).rxWr = ⟨s.rxWr.val + 1, Nat.succ_lt_succ h⟩ := rfl

@[simp] theorem State.appendByte_lastDec (s : State) (b : Byte) (h : s.rxWr.val < rxCap) :
    (s.appendByte b h).lastDec = s.lastDec := rfl

@[simp] theorem State.appendByte_tlmActive (s : State) (b : Byte) (h : s.rxWr.val < rxCap) :
    (s.appendByte b h).tlmActive = s.tlmActive := rfl

@[simp] theorem State.appendByte_rxOvf (s : State) (b : Byte) (h : s.rxWr.val < rxCap) :
    (s.appendByte b h).rxOvf = s.rxOvf := rfl

@[simp] theorem State.appendByte_rqAbort (s : State) (b : Byte) (h : s.rxWr.val < rxCap) :
    (s.appendByte b h).rqAbort = s.rqAbort := rfl

@[simp] theorem State.appendByte_cfgErrIvl (s : State) (b : Byte) (h : s.rxWr.val < rxCap) :
    (s.appendByte b h).cfgErrIvl = s.cfgErrIvl := rfl

@[simp] theorem State.appendByte_cfgErrNch (s : State) (b : Byte) (h : s.rxWr.val < rxCap) :
    (s.appendByte b h).cfgErrNch = s.cfgErrNch := rfl

@[simp] theorem State.appendByte_out (s : State) (b : Byte) (h : s.rxWr.val < rxCap) :
    (s.appendByte b h).out = s.out := rfl

@[simp] theorem State.appendByte_rdOut (s : State) (b : Byte) (h : s.rxWr.val < rxCap) :
    (s.appendByte b h).rdOut = s.rdOut := rfl

@[simp] theorem State.appendByte_noResched (s : State) (b : Byte) (h : s.rxWr.val < rxCap) :
    (s.appendByte b h).noResched = s.noResched := rfl

@[simp] theorem State.appendByte_inputs (s : State) (b : Byte) (h : s.rxWr.val < rxCap) :
    (s.appendByte b h).inputs = s.inputs := rfl

@[simp] theorem State.appendByte_freeDraws (s : State) (b : Byte) (h : s.rxWr.val < rxCap) :
    (s.appendByte b h).freeDraws = s.freeDraws := rfl

/-! ## answer -/

@[simp] theorem State.answer_chan (s : State) (v : Slot) (c : Ch) : (s.answer v).chan c = s.chan c := rfl

@[simp] theorem State.answer_cfg (s : State) (v : Slot) : (s.answer v).cfg = s.cfg := rfl

@[simp] theorem State.answer_rrIdx (s : State) (v : Slot) : (s.answer v).rrIdx = s.rrIdx := rfl

@[simp] theorem State.answer_rxBuf (s : State) (v : Slot) : (s.answer v).rxBuf = s.rxBuf := rfl

@[simp] theorem State.answer_rxWr (s : State) (v : Slot) : (s.answer v).rxWr = s.rxWr := rfl

@[simp] theorem State.answer_lastDec (s : State) (v : Slot) :
    (s.answer v).lastDec = s.lastDec := rfl

@[simp] theorem State.answer_tlmActive (s : State) (v : Slot) :
    (s.answer v).tlmActive = s.tlmActive := rfl

@[simp] theorem State.answer_rxOvf (s : State) (v : Slot) : (s.answer v).rxOvf = s.rxOvf := rfl

@[simp] theorem State.answer_rqAbort (s : State) (v : Slot) :
    (s.answer v).rqAbort = s.rqAbort := rfl

@[simp] theorem State.answer_cfgErrIvl (s : State) (v : Slot) :
    (s.answer v).cfgErrIvl = s.cfgErrIvl := rfl

@[simp] theorem State.answer_cfgErrNch (s : State) (v : Slot) :
    (s.answer v).cfgErrNch = s.cfgErrNch := rfl

@[simp] theorem State.answer_out (s : State) (v : Slot) : (s.answer v).out = s.out := rfl

@[simp] theorem State.answer_rdOut (s : State) (v : Slot) :
    (s.answer v).rdOut = s.rdOut ++ [v] := rfl

@[simp] theorem State.answer_noResched (s : State) (v : Slot) :
    (s.answer v).noResched = s.noResched := rfl

@[simp] theorem State.answer_inputs (s : State) (v : Slot) : (s.answer v).inputs = s.inputs := rfl

@[simp] theorem State.answer_freeDraws (s : State) (v : Slot) :
    (s.answer v).freeDraws = s.freeDraws := rfl

/-! ## present -/

@[simp] theorem State.present_chan (s : State) (w : EventWord) (c : Ch) : (s.present w).chan c = s.chan c := rfl

@[simp] theorem State.present_cfg (s : State) (w : EventWord) : (s.present w).cfg = s.cfg := rfl

@[simp] theorem State.present_rrIdx (s : State) (w : EventWord) :
    (s.present w).rrIdx = s.rrIdx := rfl

@[simp] theorem State.present_rxBuf (s : State) (w : EventWord) :
    (s.present w).rxBuf = s.rxBuf := rfl

@[simp] theorem State.present_rxWr (s : State) (w : EventWord) :
    (s.present w).rxWr = s.rxWr := rfl

@[simp] theorem State.present_lastDec (s : State) (w : EventWord) :
    (s.present w).lastDec = s.lastDec := rfl

@[simp] theorem State.present_tlmActive (s : State) (w : EventWord) :
    (s.present w).tlmActive = s.tlmActive := rfl

@[simp] theorem State.present_rxOvf (s : State) (w : EventWord) :
    (s.present w).rxOvf = s.rxOvf := rfl

@[simp] theorem State.present_rqAbort (s : State) (w : EventWord) :
    (s.present w).rqAbort = s.rqAbort := rfl

@[simp] theorem State.present_cfgErrIvl (s : State) (w : EventWord) :
    (s.present w).cfgErrIvl = s.cfgErrIvl := rfl

@[simp] theorem State.present_cfgErrNch (s : State) (w : EventWord) :
    (s.present w).cfgErrNch = s.cfgErrNch := rfl

@[simp] theorem State.present_out (s : State) (w : EventWord) : (s.present w).out = s.out := rfl

@[simp] theorem State.present_rdOut (s : State) (w : EventWord) :
    (s.present w).rdOut = s.rdOut := rfl

@[simp] theorem State.present_noResched (s : State) (w : EventWord) :
    (s.present w).noResched = s.noResched := rfl

@[simp] theorem State.present_inputs (s : State) (w : EventWord) :
    (s.present w).inputs = .word w :: s.inputs := rfl

@[simp] theorem State.present_freeDraws (s : State) (w : EventWord) :
    (s.present w).freeDraws = s.freeDraws := rfl

/-! ## raise_rxOverflow -/

@[simp] theorem State.raise_rxOverflow_chan (s : State) (b : Byte) (c : Ch) : (s.raise (.rxOverflow b)).chan c = s.chan c := rfl

@[simp] theorem State.raise_rxOverflow_cfg (s : State) (b : Byte) :
    (s.raise (.rxOverflow b)).cfg = s.cfg := rfl

@[simp] theorem State.raise_rxOverflow_rrIdx (s : State) (b : Byte) :
    (s.raise (.rxOverflow b)).rrIdx = s.rrIdx := rfl

@[simp] theorem State.raise_rxOverflow_rxBuf (s : State) (b : Byte) :
    (s.raise (.rxOverflow b)).rxBuf = s.rxBuf := rfl

@[simp] theorem State.raise_rxOverflow_rxWr (s : State) (b : Byte) :
    (s.raise (.rxOverflow b)).rxWr = s.rxWr := rfl

@[simp] theorem State.raise_rxOverflow_lastDec (s : State) (b : Byte) :
    (s.raise (.rxOverflow b)).lastDec = s.lastDec := rfl

@[simp] theorem State.raise_rxOverflow_tlmActive (s : State) (b : Byte) :
    (s.raise (.rxOverflow b)).tlmActive = s.tlmActive := rfl

@[simp] theorem State.raise_rxOverflow_rxOvf (s : State) (b : Byte) :
    (s.raise (.rxOverflow b)).rxOvf = true := rfl

@[simp] theorem State.raise_rxOverflow_rqAbort (s : State) (b : Byte) :
    (s.raise (.rxOverflow b)).rqAbort = s.rqAbort := rfl

@[simp] theorem State.raise_rxOverflow_cfgErrIvl (s : State) (b : Byte) :
    (s.raise (.rxOverflow b)).cfgErrIvl = s.cfgErrIvl := rfl

@[simp] theorem State.raise_rxOverflow_cfgErrNch (s : State) (b : Byte) :
    (s.raise (.rxOverflow b)).cfgErrNch = s.cfgErrNch := rfl

@[simp] theorem State.raise_rxOverflow_out (s : State) (b : Byte) :
    (s.raise (.rxOverflow b)).out = s.out := rfl

@[simp] theorem State.raise_rxOverflow_rdOut (s : State) (b : Byte) :
    (s.raise (.rxOverflow b)).rdOut = s.rdOut := rfl

@[simp] theorem State.raise_rxOverflow_noResched (s : State) (b : Byte) :
    (s.raise (.rxOverflow b)).noResched = s.noResched := rfl

@[simp] theorem State.raise_rxOverflow_inputs (s : State) (b : Byte) :
    (s.raise (.rxOverflow b)).inputs = s.inputs := rfl

@[simp] theorem State.raise_rxOverflow_freeDraws (s : State) (b : Byte) :
    (s.raise (.rxOverflow b)).freeDraws = s.freeDraws := rfl

/-! ## raise_roundInvalid -/

theorem State.raise_roundInvalid_chan (s : State) (x y : Bool) (c : Ch) : (s.raise (.roundInvalid x y)).chan c = s.clearFlags.chan c := rfl

@[simp] theorem State.raise_roundInvalid_cfg (s : State) (x y : Bool) :
    (s.raise (.roundInvalid x y)).cfg = s.cfg := rfl

@[simp] theorem State.raise_roundInvalid_rrIdx (s : State) (x y : Bool) :
    (s.raise (.roundInvalid x y)).rrIdx = s.rrIdx := rfl

@[simp] theorem State.raise_roundInvalid_rxBuf (s : State) (x y : Bool) :
    (s.raise (.roundInvalid x y)).rxBuf = s.rxBuf := rfl

@[simp] theorem State.raise_roundInvalid_rxWr (s : State) (x y : Bool) :
    (s.raise (.roundInvalid x y)).rxWr = s.rxWr := rfl

@[simp] theorem State.raise_roundInvalid_lastDec (s : State) (x y : Bool) :
    (s.raise (.roundInvalid x y)).lastDec = s.lastDec := rfl

@[simp] theorem State.raise_roundInvalid_tlmActive (s : State) (x y : Bool) :
    (s.raise (.roundInvalid x y)).tlmActive = false := rfl

@[simp] theorem State.raise_roundInvalid_rxOvf (s : State) (x y : Bool) :
    (s.raise (.roundInvalid x y)).rxOvf = s.rxOvf := rfl

@[simp] theorem State.raise_roundInvalid_rqAbort (s : State) (x y : Bool) :
    (s.raise (.roundInvalid x y)).rqAbort = true := rfl

@[simp] theorem State.raise_roundInvalid_cfgErrIvl (s : State) (x y : Bool) :
    (s.raise (.roundInvalid x y)).cfgErrIvl = s.cfgErrIvl := rfl

@[simp] theorem State.raise_roundInvalid_cfgErrNch (s : State) (x y : Bool) :
    (s.raise (.roundInvalid x y)).cfgErrNch = s.cfgErrNch := rfl

@[simp] theorem State.raise_roundInvalid_out (s : State) (x y : Bool) :
    (s.raise (.roundInvalid x y)).out = s.out := rfl

@[simp] theorem State.raise_roundInvalid_rdOut (s : State) (x y : Bool) :
    (s.raise (.roundInvalid x y)).rdOut = s.rdOut := rfl

@[simp] theorem State.raise_roundInvalid_noResched (s : State) (x y : Bool) :
    (s.raise (.roundInvalid x y)).noResched = s.noResched + 1 := rfl

@[simp] theorem State.raise_roundInvalid_inputs (s : State) (x y : Bool) :
    (s.raise (.roundInvalid x y)).inputs = s.inputs := rfl

@[simp] theorem State.raise_roundInvalid_freeDraws (s : State) (x y : Bool) :
    (s.raise (.roundInvalid x y)).freeDraws = s.freeDraws := rfl

/-! ## advanceRound -/

@[simp] theorem State.advanceRound_cfg (s : State) : (s.advanceRound).cfg = s.cfg := rfl

@[simp] theorem State.advanceRound_rrIdx (s : State) : (s.advanceRound).rrIdx = s.nextIndex := rfl

@[simp] theorem State.advanceRound_rxBuf (s : State) : (s.advanceRound).rxBuf = s.rxBuf := rfl

@[simp] theorem State.advanceRound_rxWr (s : State) : (s.advanceRound).rxWr = 0 := rfl

@[simp] theorem State.advanceRound_lastDec (s : State) :
    (s.advanceRound).lastDec = s.lastDec := rfl

@[simp] theorem State.advanceRound_tlmActive (s : State) :
    (s.advanceRound).tlmActive = s.tlmActive := rfl

@[simp] theorem State.advanceRound_rxOvf (s : State) : (s.advanceRound).rxOvf = s.rxOvf := rfl

@[simp] theorem State.advanceRound_rqAbort (s : State) :
    (s.advanceRound).rqAbort = s.rqAbort := rfl

@[simp] theorem State.advanceRound_cfgErrIvl (s : State) :
    (s.advanceRound).cfgErrIvl = s.cfgErrIvl := rfl

@[simp] theorem State.advanceRound_cfgErrNch (s : State) :
    (s.advanceRound).cfgErrNch = s.cfgErrNch := rfl

@[simp] theorem State.advanceRound_out (s : State) : (s.advanceRound).out = s.out := rfl

@[simp] theorem State.advanceRound_rdOut (s : State) : (s.advanceRound).rdOut = s.rdOut := rfl

@[simp] theorem State.advanceRound_noResched (s : State) :
    (s.advanceRound).noResched = s.noResched := rfl

@[simp] theorem State.advanceRound_inputs (s : State) : (s.advanceRound).inputs = s.inputs := rfl

@[simp] theorem State.advanceRound_freeDraws (s : State) :
    (s.advanceRound).freeDraws = s.freeDraws := rfl

/-! ## withInputs, countDraw: what is presented, and the count of free choices -/

@[simp] theorem State.withInputs_chan (s : State) (l : List Input) (c : Ch) : (s.withInputs l).chan c = s.chan c := rfl

@[simp] theorem State.withInputs_cfg (s : State) (l : List Input) : (s.withInputs l).cfg = s.cfg := rfl

@[simp] theorem State.withInputs_rrIdx (s : State) (l : List Input) : (s.withInputs l).rrIdx = s.rrIdx := rfl

@[simp] theorem State.withInputs_rxBuf (s : State) (l : List Input) : (s.withInputs l).rxBuf = s.rxBuf := rfl

@[simp] theorem State.withInputs_rxWr (s : State) (l : List Input) : (s.withInputs l).rxWr = s.rxWr := rfl

@[simp] theorem State.withInputs_lastDec (s : State) (l : List Input) : (s.withInputs l).lastDec = s.lastDec := rfl

@[simp] theorem State.withInputs_tlmActive (s : State) (l : List Input) : (s.withInputs l).tlmActive = s.tlmActive := rfl

@[simp] theorem State.withInputs_rxOvf (s : State) (l : List Input) : (s.withInputs l).rxOvf = s.rxOvf := rfl

@[simp] theorem State.withInputs_rqAbort (s : State) (l : List Input) : (s.withInputs l).rqAbort = s.rqAbort := rfl

@[simp] theorem State.withInputs_cfgErrIvl (s : State) (l : List Input) : (s.withInputs l).cfgErrIvl = s.cfgErrIvl := rfl

@[simp] theorem State.withInputs_cfgErrNch (s : State) (l : List Input) : (s.withInputs l).cfgErrNch = s.cfgErrNch := rfl

@[simp] theorem State.withInputs_out (s : State) (l : List Input) : (s.withInputs l).out = s.out := rfl

@[simp] theorem State.withInputs_rdOut (s : State) (l : List Input) : (s.withInputs l).rdOut = s.rdOut := rfl

@[simp] theorem State.withInputs_noResched (s : State) (l : List Input) : (s.withInputs l).noResched = s.noResched := rfl

@[simp] theorem State.withInputs_inputs (s : State) (l : List Input) : (s.withInputs l).inputs = l := rfl

@[simp] theorem State.withInputs_freeDraws (s : State) (l : List Input) : (s.withInputs l).freeDraws = s.freeDraws := rfl

@[simp] theorem State.countDraw_chan (s : State) (c : Ch) : (s.countDraw).chan c = s.chan c := rfl

@[simp] theorem State.countDraw_cfg (s : State) : (s.countDraw).cfg = s.cfg := rfl

@[simp] theorem State.countDraw_rrIdx (s : State) : (s.countDraw).rrIdx = s.rrIdx := rfl

@[simp] theorem State.countDraw_rxBuf (s : State) : (s.countDraw).rxBuf = s.rxBuf := rfl

@[simp] theorem State.countDraw_rxWr (s : State) : (s.countDraw).rxWr = s.rxWr := rfl

@[simp] theorem State.countDraw_lastDec (s : State) : (s.countDraw).lastDec = s.lastDec := rfl

@[simp] theorem State.countDraw_tlmActive (s : State) : (s.countDraw).tlmActive = s.tlmActive := rfl

@[simp] theorem State.countDraw_rxOvf (s : State) : (s.countDraw).rxOvf = s.rxOvf := rfl

@[simp] theorem State.countDraw_rqAbort (s : State) : (s.countDraw).rqAbort = s.rqAbort := rfl

@[simp] theorem State.countDraw_cfgErrIvl (s : State) : (s.countDraw).cfgErrIvl = s.cfgErrIvl := rfl

@[simp] theorem State.countDraw_cfgErrNch (s : State) : (s.countDraw).cfgErrNch = s.cfgErrNch := rfl

@[simp] theorem State.countDraw_out (s : State) : (s.countDraw).out = s.out := rfl

@[simp] theorem State.countDraw_rdOut (s : State) : (s.countDraw).rdOut = s.rdOut := rfl

@[simp] theorem State.countDraw_noResched (s : State) : (s.countDraw).noResched = s.noResched := rfl

@[simp] theorem State.countDraw_inputs (s : State) : (s.countDraw).inputs = s.inputs := rfl

@[simp] theorem State.countDraw_freeDraws (s : State) : (s.countDraw).freeDraws = s.freeDraws + 1 := rfl

/-! ## A channel's slots -/

theorem Channel.priSlot_of_lt (ch : Channel) {i : Nat} (h : i < 16) : ch.priSlot i = ch.pri[i] := by
  simp [Channel.priSlot, h]

@[simp] theorem Channel.priSlot_of_ge (ch : Channel) {i : Nat} (h : 16 ≤ i) : ch.priSlot i = 0 := by
  simp [Channel.priSlot, Nat.not_lt.mpr h]

theorem Channel.secSlot_of_lt (ch : Channel) {i : Nat} (h : i < 16) : ch.secSlot i = ch.sec[i] := by
  simp [Channel.secSlot, h]

@[simp] theorem Channel.secSlot_of_ge (ch : Channel) {i : Nat} (h : 16 ≤ i) : ch.secSlot i = 0 := by
  simp [Channel.secSlot, Nat.not_lt.mpr h]

@[simp] theorem Channel.transfer_length (ch : Channel) (n : Nat) : (ch.transfer n).length = n := by
  simp [Channel.transfer]

/-- What a transfer of `n` slots holds at index j. -/
theorem Channel.transfer_getElem? (ch : Channel) {n j : Nat} (h : j < n) :
    (ch.transfer n)[j]? = some (ch.priSlot j) := by
  simp [Channel.transfer, h]

end Sys2Proof.Machine
end

