-- ==== Sys2Proof/Laws/Ops.lean ====
section
/-! SUPPORT. For each shared operation, what it can do, said once; for each instruction, when it
answers a next state and which. -/

namespace Sys2Proof.Machine

/-! ## Preconditions -/

/-- A guarded operation answers a next state exactly when its precondition holds and what it guards
answers it. -/
@[simp] theorem require_eq_next (p : Prop) [Decidable p] (r : Refusal) (go : Result) (t : State) :
    require p r go = .next t ↔ p ∧ go = .next t := by
  unfold require; split <;> simp_all

/-- A guarded operation faults only where what it guards does. -/
@[simp] theorem require_eq_fault (p : Prop) [Decidable p] (r : Refusal) (go : Result) (f : Fault) :
    require p r go = .fault f ↔ p ∧ go = .fault f := by
  unfold require; split <;> simp_all

theorem require_of (p : Prop) [Decidable p] (r : Refusal) (go : Result) (h : p) :
    require p r go = go := by
  simp [require, h]

theorem require_refuses (p : Prop) [Decidable p] (r : Refusal) (go : Result) (h : ¬ p) :
    require p r go = .refused r := by
  simp [require, h]

/-! ## Flags -/

theorem State.halted_eq_true (s : State) :
    s.halted = true ↔ s.cfgErrIvl = true ∨ s.cfgErrNch = true := by
  simp [State.halted]

/-- `stale` says that some existing channel's flag is 1 (R111). -/
theorem State.stale_eq_true (s : State) :
    s.stale = true ↔ ∃ c : Ch, c.val < s.cfg.nch ∧ (s.chan c).tlm = true := by
  simp [State.stale]

/-- `short` says that the receive cursor is not at capacity (R111). -/
theorem State.short_eq_true (s : State) : s.short = true ↔ s.rxWr ≠ 10 := by
  simp only [State.short, decide_eq_true_eq, ne_eq, not_iff_not]
  exact ⟨fun h => Fin.ext h, fun h => by rw [h]; rfl⟩

/-! ## What each operation answers -/

/-- FS_TICK c runs exactly in IDLE in a running block (R91). -/
theorem execFsTick_eq_next (c : Ch) (s t : State) :
    execFsTick c s = .next t ↔
      c.val < s.cfg.nch ∧ s.halted = false ∧ (s.chan c).fsPc = .idle ∧ s.tick c = t := by
  simp [execFsTick]

/-- FS_COPY c runs exactly in WAIT with no transfer in flight (R92). -/
theorem execFsCopy_eq_next (c : Ch) (s t : State) :
    execFsCopy c s = .next t ↔
      c.val < s.cfg.nch ∧ s.halted = false ∧
        ((s.chan c).fsPc = .wait ∧ (s.chan c).txBusy = false) ∧
        s.setChan c { s.chan c with
          pri := (s.chan c).sec, cntBuffered := (s.chan c).cntBuffered + 1, fsPc := .trig } = t := by
  simp [execFsCopy]

/-- FS_TRIG c runs exactly in TRIG (R93). -/
theorem execFsTrig_eq_next (c : Ch) (s t : State) :
    execFsTrig c s = .next t ↔
      c.val < s.cfg.nch ∧ s.halted = false ∧ (s.chan c).fsPc = .trig ∧
        { s.setChan c { s.chan c with txBusy := true, fsPc := .clr } with
          out := s.out ++ [(c, (s.chan c).transfer s.cfg.frameSlots)] } = t := by
  simp [execFsTrig]

/-- FS_CLR c runs exactly in CLR (R94). -/
theorem execFsClr_eq_next (c : Ch) (s t : State) :
    execFsClr c s = .next t ↔
      c.val < s.cfg.nch ∧ s.halted = false ∧ (s.chan c).fsPc = .clr ∧
        s.setChan c { s.chan c with tlm := false, fsPc := .idle } = t := by
  simp [execFsClr]

/-- TX_DONE c runs exactly with a transfer in flight (R95). -/
theorem execTxDone_eq_next (c : Ch) (s t : State) :
    execTxDone c s = .next t ↔
      c.val < s.cfg.nch ∧ s.halted = false ∧ (s.chan c).txBusy = true ∧
        s.setChan c { s.chan c with txBusy := false } = t := by
  simp [execTxDone]

/-- RQ_TICK runs in every running block (R111). -/
theorem execRqTick_eq_next (s t : State) :
    execRqTick s = .next t ↔
      s.halted = false ∧ (if s.tlmActive then s.requestTick else s) = t := by
  simp [execRqTick]

/-- RX_BYTE b runs in every running block (R112). -/
theorem execRxByte_eq_next (b : Byte) (s t : State) :
    execRxByte b s = .next t ↔
      s.halted = false ∧ (if s.cfg.tlmEn then s.receive b else s) = t := by
  simp [execRxByte]

/-- TLM_START runs exactly when enabled and inactive (R113). -/
theorem execTlmStart_eq_next (s t : State) :
    execTlmStart s = .next t ↔
      s.halted = false ∧ s.cfg.tlmEn = true ∧ s.tlmActive = false ∧ s.activate = t := by
  simp [execTlmStart]

/-- ACK_DEC runs in every running block (R114). -/
theorem execAckDec_eq_next (s t : State) :
    execAckDec s = .next t ↔ s.halted = false ∧ { s with lastDec := none } = t := by
  simp [execAckDec]

/-- CLR_OVF runs in every running block (R115). -/
theorem execClrOvf_eq_next (s t : State) :
    execClrOvf s = .next t ↔ s.halted = false ∧ s.clearOverflow = t := by
  simp [execClrOvf]

/-- SET_CODE c, v runs exactly for a code up to 2047 (R140). -/
theorem execSetCode_eq_next (c : Ch) (v : Half) (s t : State) :
    execSetCode c v s = .next t ↔
      c.val < s.cfg.nch ∧ s.halted = false ∧ v.toNat ≤ 2047 ∧
        s.setChan c { s.chan c with code := v } = t := by
  simp [execSetCode]

/-- SET_TLM c, v runs exactly with the coordinator inactive (R141). -/
theorem execSetTlm_eq_next (c : Ch) (v : Bool) (s t : State) :
    execSetTlm c v s = .next t ↔
      c.val < s.cfg.nch ∧ s.halted = false ∧ s.tlmActive = false ∧ s.setTlm c v = t := by
  simp [execSetTlm]

/-- RD c, r runs exactly for a register that exists in this configuration, and only answers
(R142). -/
theorem execRd_eq_next (c : Ch) (r : Byte) (s t : State) :
    execRd c r s = .next t ↔
      (c.val < s.cfg.nch ∨ c = 0) ∧ ∃ reg, Reg.ofNumber r = some reg ∧
        (reg.isGlobal = true → c = 0) ∧ (reg.isGlobal = false → c.val < s.cfg.nch) ∧
        reg.slotExists s.cfg.frameSlots = true ∧ s.answer (s.readReg c reg) = t := by
  unfold execRd
  cases h : Reg.ofNumber r <;> simp [readNamed]

/-- RD changes nothing but what it has answered (R142, R43). -/
theorem execRd_only_answers {c : Ch} {r : Byte} {s t : State} (h : execRd c r s = .next t) :
    ∃ v, t = s.answer v := by
  obtain ⟨-, reg, -, -, -, -, rfl⟩ := (execRd_eq_next c r s t).mp h
  exact ⟨_, rfl⟩

/-! ## The pieces of the coordinator -/

/-- What FS_TICK leaves outside its channel: everything (R91, R101). -/
theorem State.tick_eq_setChan (s : State) (c : Ch) : s.tick c = s.setChan c ((s.tick c).chan c) := by
  unfold State.tick; split <;> simp

/-- What an RX_BYTE with telemetry enabled can do (R112). -/
theorem State.receive_cases (s : State) (b : Byte) :
    (s.rxWr = 10 ∧ s.receive b = { s with rxOvf := true }) ∨
    (∃ h : s.rxWr.val < rxCap, s.rxWr.val ≠ 9 ∧ s.receive b = s.appendByte b h) ∨
    (∃ h : s.rxWr.val < rxCap, s.rxWr.val = 9 ∧
      s.receive b =
        { (s.appendByte b h).setChan s.rrIdx
            { s.chan s.rrIdx with record := decodeTelemetry (s.appendByte b h).rxBuf } with
          lastDec := some s.rrIdx }) := by
  unfold State.receive
  split
  · next h =>
    by_cases h9 : s.rxWr.val = 9
    · exact .inr (.inr ⟨h, h9, by simp [State.decodeIfFull, h9]⟩)
    · refine .inr (.inl ⟨h, h9, ?_⟩)
      have hne : ¬ s.rxWr.val + 1 = rxCap := fun e => h9 (by simp only [rxCap] at e; omega)
      exact if_neg hne
  · next h =>
    have := s.rxWr.isLt
    exact .inl ⟨Fin.ext (by simp only [rxCap] at h; show s.rxWr.val = 10; omega), rfl⟩

/-- Of a channel an RX_BYTE changes the record at most (R112). -/
theorem State.chan_receive (s : State) (b : Byte) (c : Ch) :
    ∃ r, (s.receive b).chan c = { s.chan c with record := r } := by
  rcases s.receive_cases b with ⟨-, he⟩ | ⟨h1, -, he⟩ | ⟨h1, -, he⟩ <;> rw [he]
  · exact ⟨(s.chan c).record, rfl⟩
  · exact ⟨(s.chan c).record, rfl⟩
  · by_cases hk : c = s.rrIdx
    · subst hk
      exact ⟨_, State.chan_setChan_self (s.appendByte b h1) _ _⟩
    · exact ⟨(s.chan c).record, State.chan_setChan_of_ne (s.appendByte b h1) _ hk⟩

/-- What an RX_BYTE leaves alone of the registers a scheduler operation uses (R112). -/
theorem State.receive_keeps (s : State) (b : Byte) :
    (s.receive b).cfg = s.cfg ∧ (s.receive b).halted = s.halted ∧ (s.receive b).out = s.out := by
  rcases s.receive_cases b with ⟨-, he⟩ | ⟨h1, -, he⟩ | ⟨h1, -, he⟩ <;> rw [he] <;>
    exact ⟨rfl, rfl, rfl⟩

/-- A channel after a valid round has begun (R111 steps 2 to 4). -/
theorem State.chan_advanceRound (s : State) (c : Ch) :
    s.advanceRound.chan c = { s.chan c with
      tlm := if c = s.nextIndex then true else if c = s.rrIdx then false else (s.chan c).tlm } := by
  unfold State.advanceRound
  rw [State.chan_setTlm]
  have key : ∀ k, State.chan { s.setTlm s.rrIdx false with rxWr := 0, rrIdx := s.nextIndex } k =
      { s.chan k with tlm := if k = s.rrIdx then false else (s.chan k).tlm } := by
    intro k
    show (s.setTlm s.rrIdx false).chan k = _
    rw [State.chan_setTlm]
    split
    · next h => subst h; simp
    · simp_all
  simp only [key]
  split
  · next h => subst h; simp
  · simp_all

/-- What RQ_TICK of an active coordinator can do (R111, R154). -/
theorem State.requestTick_cases (s : State) :
    ((s.stale = true ∨ s.short = true) ∧
      s.requestTick = s.raise (.roundInvalid s.stale s.short)) ∨
    (s.stale = false ∧ s.short = false ∧ s.requestTick = s.advanceRound) := by
  unfold State.requestTick
  cases s.stale <;> cases s.short <;> simp

end Sys2Proof.Machine
end

