-- ==== Sys2Proof/Laws/Step.lean ====
section
/-! SUPPORT. What one step can do, said once. -/

namespace Sys2Proof.Machine

/-- `t` is `s` but for what is presented and the count of free choices. -/
def State.SameBlock (s t : State) : Prop :=
  t = { s with inputs := t.inputs, freeDraws := t.freeDraws }

theorem State.sameBlock_withInputs (s : State) (l : List Input) : s.SameBlock (s.withInputs l) := rfl
theorem State.sameBlock_countDraw (s : State) : s.SameBlock s.countDraw := rfl

/-- Every register of the same block reads the same. -/
theorem State.SameBlock.fields {s t : State} (h : s.SameBlock t) :
    t.cfg = s.cfg ∧ (∀ c, t.chan c = s.chan c) ∧ t.rrIdx = s.rrIdx ∧ t.rxBuf = s.rxBuf ∧
      t.rxWr = s.rxWr ∧ t.lastDec = s.lastDec ∧ t.tlmActive = s.tlmActive ∧ t.rxOvf = s.rxOvf ∧
      t.rqAbort = s.rqAbort ∧ t.cfgErrIvl = s.cfgErrIvl ∧ t.cfgErrNch = s.cfgErrNch ∧
      t.out = s.out ∧ t.rdOut = s.rdOut ∧ t.noResched = s.noResched ∧ t.halted = s.halted := by
  rw [h]
  exact ⟨rfl, fun _ => rfl, rfl, rfl, rfl, rfl, rfl, rfl, rfl, rfl, rfl, rfl, rfl, rfl, rfl⟩

/-- Every step that answers a next state: nothing happens, a reset, or one operation in the state
that differs from `s` in what is presented and in the count of free choices at most. -/
theorem step_cases {s t : State} (h : step s = .next t) :
    (s.inputs = [] ∧ s.pickInternal? = none ∧ t = s) ∨
    (∃ cfg u rest, s.inputs = .reset cfg u :: rest ∧
      t = (s.withInputs rest).applyReset cfg u) ∨
    (∃ w rest i, s.inputs = .word w :: rest ∧ decode w = .ok i ∧
      exec i (s.withInputs rest) = .next t) ∨
    (∃ i, s.inputs = [] ∧ s.pickInternal? = some i ∧
      exec i s.countDraw = .next t) := by
  unfold step State.nextAction at h
  split at h
  · next hq =>
    split at hq
    · split at hq <;> simp_all
    · simp at hq
    · split at hq <;> simp at hq
  · simp at h
  · next hr =>
    split at hr
    · split at hr <;> simp at hr
    · next cfg u rest hi =>
      refine .inr (.inl ⟨cfg, u, rest, hi, ?_⟩)
      simp_all
    · split at hr <;> simp at hr
  · next i s' hrun =>
    split at hrun
    · split at hrun
      · simp at hrun
      · next j hp =>
        simp only [Action.run.injEq] at hrun
        obtain ⟨rfl, rfl⟩ := hrun
        exact .inr (.inr (.inr ⟨j, by assumption, hp, h⟩))
    · simp at hrun
    · next w rest hi =>
      split at hrun
      · next j hd =>
        simp only [Action.run.injEq] at hrun
        obtain ⟨rfl, rfl⟩ := hrun
        exact .inr (.inr (.inl ⟨w, rest, j, hi, hd, h⟩))
      · simp at hrun

/-- A step that is no reset and not idle is one operation, in the same block. -/
theorem step_runs {s t : State} (hn : ∀ cfg u rest, s.inputs ≠ .reset cfg u :: rest)
    (h : step s = .next t) : t = s ∨ ∃ i s', s.SameBlock s' ∧ exec i s' = .next t := by
  rcases step_cases h with ⟨-, -, rfl⟩ | ⟨cfg, u, rest, hi, -⟩ | ⟨_, rest, i, -, -, he⟩ | ⟨i, -, -, he⟩
  · exact .inl rfl
  · exact (hn cfg u rest hi).elim
  · exact .inr ⟨i, _, s.sameBlock_withInputs rest, he⟩
  · exact .inr ⟨i, _, s.sameBlock_countDraw, he⟩

/-- The operation that fires by itself is one that a channel's sequencer enables (R16, R67). -/
theorem State.pickInternal?_enabled {s : State} {i : Instr} (h : s.pickInternal? = some i) :
    s.halted = false ∧ ∃ c : Ch, c.val < s.cfg.nch ∧ s.internalOp? c = some i := by
  have hm : i ∈ s.enabledInternal := List.mem_of_getElem? h
  unfold State.enabledInternal at hm
  split at hm
  · simp at hm
  · next hh =>
    obtain ⟨c, -, hc⟩ := List.mem_filterMap.mp hm
    split at hc
    · next hlt => exact ⟨by simpa using hh, c, hlt, hc⟩
    · simp at hc

end Sys2Proof.Machine
end

