-- ==== Sys2Proof/Laws/Exec.lean ====
section
/-! SUPPORT. What one operation can do to one channel, to the registers of the block and to the output
trace, each said once for all thirteen; the bounds of a configuration; how a run is unfolded. -/

namespace Sys2Proof.Machine

/-! ## Bounds of a configuration (R5) -/

/-- A frame is transferred in 16 or 20 slots. -/
theorem Config.frameSlots_cases (cfg : Config) : cfg.frameSlots = 16 ∨ cfg.frameSlots = 20 := by
  have := cfg.inDomain
  simp [Params.inDomain] at this
  tauto

/-- There are at most sixteen channels. -/
theorem Config.nch_le (cfg : Config) : cfg.nch ≤ 16 := by
  have := cfg.inDomain
  simp [Params.inDomain] at this
  tauto

/-- The round-robin cursor starts at the last channel (R19). -/
theorem resetIndex_val (cfg : Config) : (resetIndex cfg).val = cfg.nch - 1 := by
  have := Config.nch_le cfg
  simp only [resetIndex, Fin.val_ofNat]
  omega

/-- The next channel is an existing one, with at least one channel (R111). -/
theorem State.nextIndex_val (s : State) (h : 1 ≤ s.cfg.nch) :
    s.nextIndex.val = (s.rrIdx.val + 1) % s.cfg.nch ∧ s.nextIndex.val < s.cfg.nch := by
  have h1 : (s.rrIdx.val + 1) % s.cfg.nch < s.cfg.nch := Nat.mod_lt _ h
  have h2 := Config.nch_le s.cfg
  have h3 : s.nextIndex.val = (s.rrIdx.val + 1) % s.cfg.nch := by
    simp only [State.nextIndex, Fin.val_ofNat]
    omega
  exact ⟨h3, h3 ▸ h1⟩

/-- A channel right after reset (R30). -/
theorem State.chan_resetWith (cfg : Config) (u : PowerUp) (c : Ch) :
    (State.resetWith cfg u).chan c = u.chans[c].channel := by
  simp [State.chan, State.resetWith]

/-! ## Transfers -/

/-- What a transfer reads: the sixteen slots of `PRI[c]`, then the hardwired zeros (R63, R93). -/
theorem Channel.transfer_eq_paddedTrain (ch : Channel) (cfg : Config) :
    ch.transfer cfg.frameSlots = paddedTrain ch.pri cfg.frameSlots := by
  apply List.ext_getElem?
  intro j
  have h := Config.frameSlots_cases cfg
  by_cases hj : j < cfg.frameSlots
  · rw [Channel.transfer_getElem? _ hj]
    unfold paddedTrain
    by_cases h16 : j < 16
    · simp [Channel.priSlot, h16, List.getElem?_append_left]
    · rw [List.getElem?_append_right (by simp; omega),
        List.getElem?_replicate, if_pos (by simp; omega)]
      simp [Channel.priSlot, h16]
  · rw [List.getElem?_eq_none (by simp; omega),
      List.getElem?_eq_none (by simp [paddedTrain]; omega)]

/-- `OUT` after one operation: FS_TRIG alone appends to it (R93). -/
theorem exec_out {i : Instr} {s t : State} (h : exec i s = .next t) :
    t.out = s.out ∨ ∃ c, i = .fsTrig c ∧
      t.out = s.out ++ [(c, (s.chan c).transfer s.cfg.frameSlots)] ∧
      c.val < s.cfg.nch ∧ (s.chan c).fsPc = .trig := by
  cases i with
  | fsTick k =>
    obtain ⟨-, -, hi, rfl⟩ := (execFsTick_eq_next k s t).mp h
    left; rw [State.tick_eq_setChan]; rfl
  | fsCopy k => obtain ⟨-, -, hi, rfl⟩ := (execFsCopy_eq_next k s t).mp h; exact .inl rfl
  | fsTrig k => obtain ⟨hc, -, hi, rfl⟩ := (execFsTrig_eq_next k s t).mp h; exact .inr ⟨k, rfl, rfl, hc, hi⟩
  | fsClr k => obtain ⟨-, -, hi, rfl⟩ := (execFsClr_eq_next k s t).mp h; exact .inl rfl
  | txDone k => obtain ⟨-, -, hi, rfl⟩ := (execTxDone_eq_next k s t).mp h; exact .inl rfl
  | setCode k v => obtain ⟨-, -, hi, rfl⟩ := (execSetCode_eq_next k v s t).mp h; exact .inl rfl
  | setTlm k v => obtain ⟨-, -, hi, rfl⟩ := (execSetTlm_eq_next k v s t).mp h; exact .inl rfl
  | rqTick =>
    obtain ⟨-, rfl⟩ := (execRqTick_eq_next s t).mp h
    left; split
    · rcases s.requestTick_cases with ⟨-, he⟩ | ⟨-, -, he⟩ <;> rw [he] <;> rfl
    · rfl
  | rxByte b =>
    obtain ⟨-, rfl⟩ := (execRxByte_eq_next b s t).mp h
    left; split
    · rcases s.receive_cases b with ⟨-, he⟩ | ⟨h1, h2, he⟩ | ⟨h1, h2, he⟩ <;> rw [he] <;> rfl
    · rfl
  | tlmStart => obtain ⟨-, -, -, rfl⟩ := (execTlmStart_eq_next s t).mp h; exact .inl rfl
  | ackDec => obtain ⟨-, rfl⟩ := (execAckDec_eq_next s t).mp h; exact .inl rfl
  | clrOvf => obtain ⟨-, rfl⟩ := (execClrOvf_eq_next s t).mp h; exact .inl rfl
  | rd k r => obtain ⟨v, rfl⟩ := execRd_only_answers h; exact .inl rfl

/-! ## One channel -/

/-- Everything one operation can do to channel c: which operation, when, and the channel after it
(R91 to R95, R111 to R113, R140, R141). -/
inductive ChanStep (s t : State) (c : Ch) : Instr → Prop
  | same (i) (h : t.chan c = s.chan c) : ChanStep s t c i
  | tickBuffered (hb : (s.chan c).txBusy = true) (hi : (s.chan c).fsPc = .idle)
      (h : t.chan c = { s.chan c with sec := s.train c, fsPc := .wait }) :
      ChanStep s t c (.fsTick c)
  | tickDirect (hb : (s.chan c).txBusy = false) (hi : (s.chan c).fsPc = .idle)
      (h : t.chan c = { s.chan c with
        pri := s.train c, cntDirect := (s.chan c).cntDirect + 1, fsPc := .trig }) :
      ChanStep s t c (.fsTick c)
  | copy (hb : (s.chan c).txBusy = false) (hi : (s.chan c).fsPc = .wait)
      (h : t.chan c = { s.chan c with
        pri := (s.chan c).sec, cntBuffered := (s.chan c).cntBuffered + 1, fsPc := .trig }) :
      ChanStep s t c (.fsCopy c)
  | trig (hi : (s.chan c).fsPc = .trig)
      (h : t.chan c = { s.chan c with txBusy := true, fsPc := .clr }) : ChanStep s t c (.fsTrig c)
  | clr (hi : (s.chan c).fsPc = .clr)
      (h : t.chan c = { s.chan c with tlm := false, fsPc := .idle }) : ChanStep s t c (.fsClr c)
  | done (hb : (s.chan c).txBusy = true) (h : t.chan c = { s.chan c with txBusy := false }) :
      ChanStep s t c (.txDone c)
  | code (v) (hv : v.toNat ≤ 2047) (h : t.chan c = { s.chan c with code := v }) :
      ChanStep s t c (.setCode c v)
  | tlm (v) (ha : s.tlmActive = false) (h : t.chan c = { s.chan c with tlm := v }) :
      ChanStep s t c (.setTlm c v)
  | clear (i) (hi : (i = .rqTick ∧ s.tlmActive = true) ∨ i = .tlmStart)
      (h : t.chan c = { s.chan c with tlm := false }) :
      ChanStep s t c i
  | ask (ha : s.tlmActive = true) (hc : c = t.rrIdx)
      (h : t.chan c = { s.chan c with tlm := true }) : ChanStep s t c .rqTick
  | decoded (b) (hr : c = s.rrIdx) (h9 : s.rxWr.val = 9) (h10 : t.rxWr.val = 10)
      (hl : t.lastDec = some c)
      (h : t.chan c = { s.chan c with record := decodeTelemetry t.rxBuf }) :
      ChanStep s t c (.rxByte b)

/-- Every operation does one of these to each channel. -/
theorem exec_chan {i : Instr} {s t : State} (h : exec i s = .next t) (c : Ch) :
    ChanStep s t c i := by
  cases i with
  | fsTick k =>
    obtain ⟨-, -, hi, rfl⟩ := (execFsTick_eq_next k s t).mp h
    by_cases hk : c = k
    · subst hk
      cases hb : (s.chan c).txBusy
      · exact .tickDirect hb hi (by simp [State.tick, hb])
      · exact .tickBuffered hb hi (by simp [State.tick, hb])
    · refine .same _ ?_
      rw [State.tick_eq_setChan, State.chan_setChan_of_ne _ _ hk]
  | fsCopy k =>
    obtain ⟨-, -, hi, rfl⟩ := (execFsCopy_eq_next k s t).mp h
    by_cases hk : c = k
    · subst hk; exact .copy hi.2 hi.1 (by simp)
    · exact .same _ (State.chan_setChan_of_ne _ _ hk)
  | fsTrig k =>
    obtain ⟨-, -, hi, rfl⟩ := (execFsTrig_eq_next k s t).mp h
    by_cases hk : c = k
    · subst hk; exact .trig hi (State.chan_setChan_self s c _)
    · exact .same _ (State.chan_setChan_of_ne s _ hk)
  | fsClr k =>
    obtain ⟨-, -, hi, rfl⟩ := (execFsClr_eq_next k s t).mp h
    by_cases hk : c = k
    · subst hk; exact .clr hi (by simp)
    · exact .same _ (State.chan_setChan_of_ne _ _ hk)
  | txDone k =>
    obtain ⟨-, -, hi, rfl⟩ := (execTxDone_eq_next k s t).mp h
    by_cases hk : c = k
    · subst hk; exact .done hi (by simp)
    · exact .same _ (State.chan_setChan_of_ne _ _ hk)
  | setCode k v =>
    obtain ⟨-, -, hi, rfl⟩ := (execSetCode_eq_next k v s t).mp h
    by_cases hk : c = k
    · subst hk; exact .code v hi (by simp)
    · exact .same _ (State.chan_setChan_of_ne _ _ hk)
  | setTlm k v =>
    obtain ⟨-, -, hi, rfl⟩ := (execSetTlm_eq_next k v s t).mp h
    by_cases hk : c = k
    · subst hk; exact .tlm v hi (by simp [State.setTlm])
    · exact .same _ (State.chan_setChan_of_ne _ _ hk)
  | rqTick =>
    obtain ⟨-, rfl⟩ := (execRqTick_eq_next s t).mp h
    split
    · next ha =>
      rcases s.requestTick_cases with ⟨-, he⟩ | ⟨-, -, he⟩ <;> rw [he]
      · by_cases hc : c.val < s.cfg.nch
        · exact .clear _ (.inl ⟨rfl, ha⟩)
            (by rw [State.raise_roundInvalid_chan, State.chan_clearFlags, if_pos hc])
        · exact .same _ (by rw [State.raise_roundInvalid_chan, State.chan_clearFlags, if_neg hc])
      · have hch := s.chan_advanceRound c
        by_cases h1 : c = s.nextIndex
        · exact .ask ha h1 (by rw [hch, if_pos h1])
        · by_cases h2 : c = s.rrIdx
          · exact .clear _ (.inl ⟨rfl, ha⟩) (by rw [hch, if_neg h1, if_pos h2])
          · exact .same _ (by rw [hch, if_neg h1, if_neg h2])
    · exact .same _ rfl
  | rxByte b =>
    obtain ⟨-, rfl⟩ := (execRxByte_eq_next b s t).mp h
    split
    · rcases s.receive_cases b with ⟨-, he⟩ | ⟨h1, h2, he⟩ | ⟨h1, h2, he⟩ <;> rw [he]
      · exact .same _ rfl
      · exact .same _ rfl
      · by_cases hk : c = s.rrIdx
        · subst hk
          refine .decoded b rfl h2 (by simp [h2]) rfl (State.chan_setChan_self _ _ _)
        · exact .same _ (State.chan_setChan_of_ne (s.appendByte b h1) _ hk)
    · exact .same _ rfl
  | tlmStart =>
    obtain ⟨-, -, -, rfl⟩ := (execTlmStart_eq_next s t).mp h
    by_cases hc : c.val < s.cfg.nch
    · exact .clear _ (.inr rfl) (by rw [State.activate_chan, State.chan_clearFlags, if_pos hc])
    · exact .same _ (by rw [State.activate_chan, State.chan_clearFlags, if_neg hc])
  | ackDec => obtain ⟨-, rfl⟩ := (execAckDec_eq_next s t).mp h; exact .same _ rfl
  | clrOvf => obtain ⟨-, rfl⟩ := (execClrOvf_eq_next s t).mp h; exact .same _ rfl
  | rd k r => obtain ⟨v, rfl⟩ := execRd_only_answers h; exact .same _ rfl

/-! ## The registers of the block -/

/-- Everything one operation can do to the registers there is one of for the block: each is as
before, or the named operation wrote it (R111 to R115, R142, R163). -/
structure BlockStep (s t : State) (i : Instr) : Prop where
  cfg : t.cfg = s.cfg
  ivl : t.cfgErrIvl = s.cfgErrIvl
  nch : t.cfgErrNch = s.cfgErrNch
  inputs : t.inputs = s.inputs
  draws : t.freeDraws = s.freeDraws
  run : s.halted = false ∨ ∃ c r, i = .rd c r
  rr : t.rrIdx = s.rrIdx ∨
    (i = .rqTick ∧ t.rrIdx = s.nextIndex ∧ s.tlmActive = true ∧ s.stale = false)
  act : t.tlmActive = s.tlmActive ∨
    (i = .rqTick ∧ s.tlmActive = true ∧ t.tlmActive = false ∧ t.rqAbort = true) ∨
    (i = .tlmStart ∧ s.cfg.tlmEn = true ∧ t.tlmActive = true ∧ t.rqAbort = false ∧
      s.tlmActive = false)
  abort : t.rqAbort = s.rqAbort ∨
    (i = .rqTick ∧ t.tlmActive = false ∧ t.rqAbort = true) ∨ (i = .tlmStart ∧ t.rqAbort = false)
  marker : t.lastDec = s.lastDec ∨ (i = .ackDec ∧ t.lastDec = none) ∨
    ∃ b, i = .rxByte b ∧ s.rxWr = 9 ∧ t.lastDec = some s.rrIdx
  wr : t.rxWr = s.rxWr ∨ (i = .rqTick ∧ s.tlmActive = true ∧ t.rxWr = 0) ∨
    (∃ b, i = .rxByte b ∧ t.rxWr.val = s.rxWr.val + 1) ∨ (i = .tlmStart ∧ t.rxWr = 10)
  ovf : t.rxOvf = s.rxOvf ∨ (i = .clrOvf ∧ t.rxOvf = false) ∨
    ∃ b, i = .rxByte b ∧ s.rxWr = 10 ∧ t.rxOvf = true
  answers : t.rdOut = s.rdOut ∨ ∃ c r v, i = .rd c r ∧ t.rdOut = s.rdOut ++ [v]
  buf : ∀ k : Fin 10, t.rxBuf[k] ≠ s.rxBuf[k] → k.val = s.rxWr.val ∧ ∃ b, i = .rxByte b

/-- Every operation that answers a next state does only that to them. -/
theorem exec_block {i : Instr} {s t : State} (h : exec i s = .next t) : BlockStep s t i := by
  cases i with
  | fsTick k =>
    obtain ⟨-, hh, hi, rfl⟩ := (execFsTick_eq_next k s t).mp h
    rw [State.tick_eq_setChan]; constructor <;> simp [hh]
  | fsCopy k => obtain ⟨-, hh, hi, rfl⟩ := (execFsCopy_eq_next k s t).mp h; constructor <;> simp [hh]
  | fsTrig k => obtain ⟨hc, hh, hi, rfl⟩ := (execFsTrig_eq_next k s t).mp h; constructor <;> simp [hh]
  | fsClr k => obtain ⟨-, hh, hi, rfl⟩ := (execFsClr_eq_next k s t).mp h; constructor <;> simp [hh]
  | txDone k => obtain ⟨-, hh, hi, rfl⟩ := (execTxDone_eq_next k s t).mp h; constructor <;> simp [hh]
  | setCode k v => obtain ⟨-, hh, hi, rfl⟩ := (execSetCode_eq_next k v s t).mp h; constructor <;> simp [hh]
  | setTlm k v => obtain ⟨-, hh, hi, rfl⟩ := (execSetTlm_eq_next k v s t).mp h; constructor <;> simp [hh]
  | rqTick =>
    obtain ⟨hh, rfl⟩ := (execRqTick_eq_next s t).mp h
    split
    · next ha =>
      rcases s.requestTick_cases with ⟨-, he⟩ | ⟨hs, -, he⟩ <;> rw [he]
      · constructor <;> simp [hh, ha, State.raise, State.clearFlags]
      · constructor <;> simp [hh, ha, hs]
    · constructor <;> simp [hh]
  | rxByte b =>
    obtain ⟨hh, rfl⟩ := (execRxByte_eq_next b s t).mp h
    split
    · rcases s.receive_cases b with ⟨h0, he⟩ | ⟨h1, h2, he⟩ | ⟨h1, h2, he⟩ <;> rw [he]
      · constructor <;> simp [hh, h0]
      · constructor <;> simp [hh]
        intro k hk; by_contra hne; exact hk (by rw [Vector.getElem_set]; rw [if_neg (fun e => hne e.symm)])
      · constructor <;> simp [hh, show s.rxWr = 9 from Fin.ext h2]
        intro k hk; by_contra hne; exact hk (by rw [Vector.getElem_set]; rw [if_neg (fun e => hne e.symm)])
    · constructor <;> simp [hh]
  | tlmStart => obtain ⟨hh, he, ha, rfl⟩ := (execTlmStart_eq_next s t).mp h; constructor <;> simp [hh, he, ha]
  | ackDec => obtain ⟨hh, rfl⟩ := (execAckDec_eq_next s t).mp h; constructor <;> simp [hh]
  | clrOvf => obtain ⟨hh, rfl⟩ := (execClrOvf_eq_next s t).mp h; constructor <;> simp [hh]
  | rd k r => obtain ⟨v, rfl⟩ := execRd_only_answers h; constructor <;> simp

/-- An RQ_TICK that leaves the coordinator active found no flag set and ten bytes, and began the next
round (R111). -/
theorem exec_rqTick_valid {s t : State} (h : exec .rqTick s = .next t) (ha : t.tlmActive = true) :
    s.stale = false ∧ s.rxWr = 10 ∧ t = s.advanceRound := by
  obtain ⟨-, rfl⟩ := (execRqTick_eq_next s t).mp h
  split at ha
  · next hact =>
    rw [if_pos hact]
    rcases s.requestTick_cases with ⟨-, he⟩ | ⟨h1, h2, he⟩
    · rw [he] at ha
      simp [State.raise] at ha
    · refine ⟨h1, ?_, he⟩
      by_contra hx
      have := (State.short_eq_true s).mpr hx
      simp [h2] at this
  · simp_all

/-- While the coordinator is active the current channel's set flag stays set through every operation
but RQ_TICK and its FS_CLR (R116). -/
theorem exec_keeps_flag {i : Instr} {s u : State} (he : exec i s = .next u) (hi : i ≠ .rqTick)
    (ha : s.tlmActive = true) (hf : (s.chan s.rrIdx).tlm = true) (hc : i ≠ .fsClr s.rrIdx) :
    u.tlmActive = true ∧ u.rrIdx = s.rrIdx ∧ u.cfg = s.cfg ∧
      (u.chan s.rrIdx).tlm = true := by
  have hb := exec_block he
  have hch := exec_chan he s.rrIdx
  have hts : i ≠ .tlmStart := by
    rintro rfl
    have := ((execTlmStart_eq_next s u).mp he).2.2.1
    simp [ha] at this
  refine ⟨by rcases hb.act with h1 | h1 | h1 <;> simp_all,
    by rcases hb.rr with h1 | h1 <;> simp_all, hb.cfg, ?_⟩
  cases hch <;> simp_all

/-! ## Internal operations and runs -/

theorem execAll_nil_eq_next (s t : State) : execAll [] s = .next t ↔ s = t := by
  simp [execAll]

/-- A list of operations answers a next state exactly when each does in turn. -/
theorem execAll_cons_eq_next (i : Instr) (ops : List Instr) (s t : State) :
    execAll (i :: ops) s = .next t ↔ ∃ u, exec i s = .next u ∧ execAll ops u = .next t := by
  simp only [execAll]
  cases exec i s <;> simp

/-- Some operation fires by itself when one is enabled in a running block (R67, R196). -/
theorem State.exists_pickInternal? {s : State} (hh : s.halted = false) (c : Ch)
    (hc : c.val < s.cfg.nch) (h : s.internalOp? c ≠ none) : ∃ i, s.pickInternal? = some i := by
  obtain ⟨j, hj⟩ := Option.ne_none_iff_exists'.mp h
  have hm : j ∈ s.enabledInternal := by
    unfold State.enabledInternal
    simp only [hh, Bool.false_eq_true, if_false]
    exact List.mem_filterMap.mpr ⟨c, List.mem_finRange c, by rw [if_pos hc, hj]⟩
  exact ⟨_, List.getElem?_eq_getElem (Nat.mod_lt _ (List.length_pos_of_mem hm))⟩

/-- A step with nothing presented (R196). -/
theorem step_of_no_input {s : State} (h : s.inputs = []) :
    step s = match s.pickInternal? with
      | none => .next s
      | some i => exec i s.countDraw := by
  unfold step State.nextAction
  rw [h]
  cases s.pickInternal? <;> rfl

/-- A channel enables an internal operation exactly when it has one before it (R16). -/
theorem State.internalOp?_eq_none (s : State) (c : Ch) :
    s.internalOp? c = none ↔ (s.chan c).pendingOps = 0 := by
  unfold State.internalOp? Channel.pendingOps
  cases (s.chan c).fsPc <;> cases (s.chan c).txBusy <;> simp

/-- A channel has at most three internal operations before it (R16). -/
theorem Channel.pendingOps_le (ch : Channel) : ch.pendingOps ≤ 3 := by
  unfold Channel.pendingOps
  cases ch.fsPc <;> cases ch.txBusy <;> simp

/-- The operations before the block, as a sum over the channels. -/
theorem State.pendingOps_eq_sum (s : State) :
    s.pendingOps = ∑ c : Ch, if c.val < s.cfg.nch then (s.chan c).pendingOps else 0 := by
  rw [Fin.sum_univ_def]
  rfl

/-- What the enabled internal operation of a channel of a running block does: one operation fewer is
before its channel, and nothing of another channel changes (R92 to R94, R101). -/
theorem exec_internalOp {s : State} {c : Ch} {i : Instr} (hh : s.halted = false)
    (hc : c.val < s.cfg.nch) (h : s.internalOp? c = some i) :
    ∃ t, exec i s = .next t ∧ t.cfg = s.cfg ∧ t.halted = false ∧ t.inputs = s.inputs ∧
      (t.chan c).pendingOps + 1 = (s.chan c).pendingOps ∧ ∀ k, k ≠ c → t.chan k = s.chan k := by
  unfold State.internalOp? at h
  split at h
  · simp at h
  · next hw =>
    split at h
    · simp at h
    · next hb =>
      simp only [Option.some.injEq] at h; subst h
      have hb : (s.chan c).txBusy = false := by simpa using hb
      refine ⟨_, (execFsCopy_eq_next c s _).mpr ⟨hc, hh, ⟨hw, hb⟩, rfl⟩, rfl, hh, rfl, ?_, ?_⟩
      · simp [Channel.pendingOps, hw, hb]
      · intro k hk; exact State.chan_setChan_of_ne _ _ hk
  · next hw =>
    simp only [Option.some.injEq] at h; subst h
    refine ⟨_, (execFsTrig_eq_next c s _).mpr ⟨hc, hh, hw, rfl⟩, rfl, hh, rfl, ?_, ?_⟩
    · rw [show ∀ o, State.chan { s.setChan c { s.chan c with txBusy := true, fsPc := .clr } with
          out := o } c = _ from fun o => State.chan_setChan_self s c _]
      simp [Channel.pendingOps, hw]
    · intro k hk; exact State.chan_setChan_of_ne s _ hk
  · next hw =>
    simp only [Option.some.injEq] at h; subst h
    refine ⟨_, (execFsClr_eq_next c s _).mpr ⟨hc, hh, hw, rfl⟩, rfl, hh, rfl, ?_, ?_⟩
    · simp [Channel.pendingOps, hw]
    · intro k hk; exact State.chan_setChan_of_ne _ _ hk

/-- No list of operations changes a parameter (R29). -/
theorem execAll_cfg {ops : List Instr} {s t : State} (h : execAll ops s = .next t) :
    t.cfg = s.cfg := by
  induction ops generalizing s with
  | nil => rw [(execAll_nil_eq_next s t).mp h]
  | cons i ops ih =>
    obtain ⟨u, he, hr⟩ := (execAll_cons_eq_next i ops s t).mp h
    exact (ih hr).trans (exec_block he).cfg

/-- A run of `n + 1` steps whose first answers `t` is the run of `n` steps from `t`. -/
theorem run_succ {s t : State} (n : Nat) (h : step s = .next t) :
    Sys2Proof.core.run (n + 1) s = Sys2Proof.core.run n t := by
  have hst : Sys2Proof.core.step s = Host.Outcome.next t := h
  have := Host.Core.run.eq_2 Sys2Proof.core s n
  rw [hst] at this
  exact this

end Sys2Proof.Machine
end

