-- ==== Sys2Proof/Laws/PerInstr.lean ====
section
/-! SUPPORT. The family EncodedRow: the word of an operation matches its row of the opcode table
(30_encoding.md R67, R68). One lemma per constructor. -/

namespace Sys2Proof.Laws.EncodedRow

/-- The word of `i` under the mask of its row is the row's match. -/
abbrev Statement (i : Instr) : Prop := encode i &&& i.tableRow.2 = i.tableRow.1

/-- A word of fields under a mask of fields, field by field. -/
theorem eventWord_and (op ch op' ch' : BitVec 4) (z' : BitVec 8) (data data' : BitVec 16) :
    eventWord op ch data &&& (op' ++ ch' ++ z' ++ data') =
      eventWord (op &&& op') (ch &&& ch') (data &&& data') := by
  have h : ((op ++ ch ++ 0#8 ++ data) &&& (op' ++ ch' ++ z' ++ data') : BitVec (4 + 4 + 8 + 16)) =
      (op &&& op') ++ (ch &&& ch') ++ 0#8 ++ (data &&& data') := by
    rw [BitVec.and_append, BitVec.and_append, BitVec.and_append, BitVec.zero_and]
  exact h

theorem fsTick (c : Ch) : Statement (.fsTick c) := by revert c; decide
theorem txDone (c : Ch) : Statement (.txDone c) := by revert c; decide
theorem rqTick : Statement .rqTick := by decide

theorem rxByte (b : Byte) : Statement (.rxByte b) := by
  have h := eventWord_and 0x4 0 0xF 0xF 0xFF (0#8 ++ b) (0xFF#8 ++ 0x00#8)
  have hd : (0#8 ++ b) &&& (0xFF#8 ++ 0x00#8) = 0#16 := by rw [BitVec.and_append]; simp
  rw [hd] at h
  exact h

theorem setCode (c : Ch) (v : Half) : Statement (.setCode c v) := by
  have h := eventWord_and 0x5 (chBits c) 0xF 0x0 0xFF v 0
  rw [show chBits c &&& 0x0 = 0 by simp, show v &&& 0 = 0 by simp] at h
  exact h

theorem setTlm (c : Ch) (v : Bool) : Statement (.setTlm c v) := by revert c v; decide
theorem tlmStart : Statement .tlmStart := by decide
theorem ackDec : Statement .ackDec := by decide
theorem clrOvf : Statement .clrOvf := by decide

theorem rd (c : Ch) (r : Byte) : Statement (.rd c r) := by
  have h := eventWord_and 0xA (chBits c) 0xF 0x0 0xFF (0#8 ++ r) (0xFF#8 ++ 0x00#8)
  have hd : (0#8 ++ r) &&& (0xFF#8 ++ 0x00#8) = 0#16 := by rw [BitVec.and_append]; simp
  rw [hd] at h
  rw [show chBits c &&& 0x0 = 0 by simp] at h
  exact h

theorem fsCopy (c : Ch) : Statement (.fsCopy c) := by revert c; decide
theorem fsTrig (c : Ch) : Statement (.fsTrig c) := by revert c; decide
theorem fsClr (c : Ch) : Statement (.fsClr c) := by revert c; decide

end Sys2Proof.Laws.EncodedRow
end

