-- ==== Sys2Proof/Tests/Slice0.lean ====
section
/-! SUPPORT. Checks of the model against the examples and vectors of 95_test_vectors.md (named in each
docstring), a smoke test of WellFormed, and for each statement with hypotheses states that meet them. -/

namespace Sys2Proof.Machine.Tests

open Sys2Proof Sys2Proof.Machine

/-! ## Small states -/

/-- Three channels, channel 2 shifted by 16, 20 slots, telemetry enabled. -/
def cfg3 : Config where
  toParams := { Params.standard with nch := 3, shift := [0, 0, 16], frameSlots := 20 }
  inDomain := by decide

/-- One channel, 16 slots, telemetry disabled. -/
def cfgOff : Config where
  toParams := { Params.standard with nch := 1, shift := [0], tlmEn := false }
  inDomain := by decide

/-- A packet interval below the minimum frame time (T70: 600 kHz, 26 microseconds). -/
def cfgShort : Config where
  toParams := { Params.standard with tFsUs := 26 }
  inDomain := by decide

/-- No channel (T71). -/
def cfgNone : Config where
  toParams := { Params.standard with nch := 0, shift := [] }
  inDomain := by decide

/-- Buffer A of 95_test_vectors.md, the source's vector. -/
def bufA : Vector Byte 10 := #v[0x1c, 0x04, 0xd6, 0x00, 0x00, 0x00, 0x17, 0x00, 0x00, 0x8f]

/-- Buffer B of 95_test_vectors.md. -/
def bufB : Vector Byte 10 := #v[0xff, 0x12, 0x34, 0x01, 0x02, 0xff, 0xff, 0xff, 0xff, 0x2a]

/-- Buffer C of 95_test_vectors.md: A with a bad trailer. -/
def bufC : Vector Byte 10 := #v[0x1c, 0x04, 0xd6, 0x00, 0x00, 0x00, 0x17, 0x00, 0x00, 0x90]

/-- train(1046) of T5: the frame `0x82C6`. -/
def train1046 : Train := #v[75, 33, 33, 33, 33, 33, 75, 33, 75, 75, 33, 33, 33, 75, 75, 33]

/-- The train of `0x0011` shifted by 16, as in program P1. -/
def train0011Shifted : Train := #v[2162688, 2162688, 2162688, 2162688, 2162688, 2162688, 2162688,
  2162688, 2162688, 2162688, 2162688, 4915200, 2162688, 2162688, 2162688, 4915200]

/-- The reset state with three channels. -/
def idle3 : State := State.resetWith cfg3 PowerUp.zero

/-- The reset states of the other configurations. -/
def off : State := State.resetWith cfgOff PowerUp.zero
def short : State := State.resetWith cfgShort PowerUp.zero
def noChannel : State := State.resetWith cfgNone PowerUp.zero

/-- `idle3` with channel 0 holding code 1046 and a sequencer state, an engine state and a flag. -/
def with0 (pc : FsPc) (busy flag : Bool) : State :=
  idle3.setChan 0 { idle3.chan 0 with code := 1046, fsPc := pc, txBusy := busy, tlm := flag }

/-- The coordinator active, a complete round behind it, channel 2 current. -/
def active : State := { idle3 with tlmActive := true }

/-- The coordinator active with `n` bytes received and the first nine of them those of A. -/
def receiving (n : Fin 11) : State := { active with rxWr := n, rxBuf := bufA.set 9 0, rrIdx := 1 }

/-- What a function says of the next state, if there is one. -/
def ifNext {α : Type} (f : State → α) : Result → Option α
  | .next t => some (f t)
  | _ => none

/-- The name of a refusal, if there is one. -/
def refusal? : Result → Option Refusal
  | .refused r => some r
  | _ => none

/-! ## WellFormed: an ill-formed term for each check -/

theorem test_wellFormed_fsTick : Instr.wellFormed 3 (.fsTick 3) = false := by decide
theorem test_wellFormed_txDone : Instr.wellFormed 3 (.txDone 3) = false := by decide
theorem test_wellFormed_setCode : Instr.wellFormed 3 (.setCode 3 0) = false := by decide
theorem test_wellFormed_setTlm : Instr.wellFormed 3 (.setTlm 3 true) = false := by decide
theorem test_wellFormed_rd : Instr.wellFormed 3 (.rd 3 0x80) = false := by decide
theorem test_wellFormed_fsCopy : Instr.wellFormed 3 (.fsCopy 3) = false := by decide
theorem test_wellFormed_fsTrig : Instr.wellFormed 3 (.fsTrig 3) = false := by decide
theorem test_wellFormed_fsClr : Instr.wellFormed 3 (.fsClr 3) = false := by decide
theorem test_wellFormed_accepts : Instr.wellFormed 3 (.fsTick 2) = true ∧
    Instr.wellFormed 0 (.rd 0 0x80) = true ∧ Instr.wellFormed 0 .rqTick = true := by decide

/-! ## Decode: words written out from R67 (T80, T81) -/

theorem test_decode_fsTick : decode 0b00011111000000000000000000000000 = .ok (.fsTick 15) := by decide
theorem test_decode_txDone : decode 0b00100010000000000000000000000000 = .ok (.txDone 2) := by decide
theorem test_decode_rqTick : decode 0b00110000000000000000000000000000 = .ok .rqTick := by decide
theorem test_decode_rxByte : decode 0b01000000000000000000000000011100 = .ok (.rxByte 0x1c) := by decide
theorem test_decode_setCode : decode 0b01010001000000000000010000010110 = .ok (.setCode 1 1046) := by
  decide
theorem test_decode_setTlm : decode 0b01100001000000000000000000000001 = .ok (.setTlm 1 true) ∧
    decode 0b01100001000000000000000000000000 = .ok (.setTlm 1 false) := by decide
theorem test_decode_tlmStart : decode 0b01110000000000000000000000000000 = .ok .tlmStart := by decide
theorem test_decode_ackDec : decode 0b10000000000000000000000000000000 = .ok .ackDec := by decide
theorem test_decode_clrOvf : decode 0b10010000000000000000000000000000 = .ok .clrOvf := by decide
theorem test_decode_rd : decode 0b10100010000000000000000000001100 = .ok (.rd 2 0x0C) := by decide
theorem test_decode_fsCopy : decode 0b10110000000000000000000000000000 = .ok (.fsCopy 0) := by decide
theorem test_decode_fsTrig : decode 0b11000001000000000000000000000000 = .ok (.fsTrig 1) := by decide
theorem test_decode_fsClr : decode 0b11010001000000000000000000000000 = .ok (.fsClr 1) := by decide

/-- T81, each illegal word but the one for `NCH`, by its reason. -/
theorem test_illegal_words :
    decode 0x00000000 = .error .reservedOp ∧ decode 0xE0000000 = .error .reservedOp ∧
    decode 0xF1000000 = .error .reservedOp ∧ decode 0x10010000 = .error .zNotZero ∧
    decode 0x10000001 = .error .dataNotZero ∧ decode 0x31000000 = .error .chNotZero ∧
    decode 0x40000100 = .error .dataNotZero ∧ decode 0x41000055 = .error .chNotZero ∧
    decode 0x60000002 = .error .dataNotZero ∧ decode 0x70000001 = .error .dataNotZero ∧
    decode 0xA0000180 = .error .dataNotZero := by decide

/-- T81: `0x13000000` with three channels. -/
theorem test_channel_not_below_nch : refusal? (step (idle3.present 0x13000000)) =
    some .channelOutOfRange := by decide

/-- No word matches two rows of the opcode table: any two rows differ in a bit that both fix. -/
theorem test_opcodeTable_disjoint :
    opcodeTable.Pairwise fun a b => (a.1 ^^^ b.1) &&& a.2 &&& b.2 ≠ 0 := by decide

/-- A word of a table row is decoded, and is what the next step after reset runs (T20, T80). -/
theorem test_decodeTableWord : decodeTableWord 32 0x51000416 = some (.setCode 1 1046) ∧
    decodeTableWord 32 0 = none := by decide
theorem test_withFetchWord : ifNext (fun t => (t.chan 1).code)
    (step (State.reset.withFetchWord 32 0x51000416)) = some 1046 := by decide

/-! ## PacketCodec -/

/-- S2, T1, T2, T3. -/
theorem test_codec_vectors :
    commandFrom 1046 false = 0x082C ∧ commandFrom 2047 true = 0x0FFF ∧
    commandFrom 32768 false = 0 ∧ checksum4 0x082C = 0b0110 ∧ checksum4 0xF82C = 0x6 ∧
    frameFrom 0x082C = 0b1000001011000110 ∧ frameFrom 0xF82C = 0x82C6 := by decide

/-- S4, and the `0x0011` row of T5 with the shift of S5; T8 by R84's example. -/
theorem test_pulseTrain_bit_order :
    pulseTrain 0x0001 75 33 0 = #v[33, 33, 33, 33, 33, 33, 33, 33, 33, 33, 33, 33, 33, 33, 33, 75] := by
  decide
theorem test_pulseTrain_shift : pulseTrain 0x0011 75 33 16 = train0011Shifted := by decide
theorem test_compose : compose 1046 false 75 33 0 = train1046 := by decide

/-! ## TelemetryDecoder -/

/-- T10. -/
theorem test_crc8Update : crc8Update 0x01 0x00 = 0x07 ∧ crc8Update 0x80 0x00 = 0x89 ∧
    crc8Update 0xAA 0x55 = 0xF3 ∧ crc8Update 0x04 0x54 = 0xB7 ∧ crc8Update 0x90 0x8F = 0x5D := by
  decide

set_option maxRecDepth 10000 in
/-- S6, T11, T13. -/
theorem test_decodeTelemetry_A :
    decodeTelemetry bufA = { temp := 28, cv := 1238, ca := 0, mah := 23, erpm := 0, crc := 0 } := by
  decide
set_option maxRecDepth 10000 in
theorem test_decodeTelemetry_B : decodeTelemetry bufB =
    { temp := -1, cv := 4660, ca := 258, mah := 65535, erpm := 6553500, crc := 0 } := by decide
set_option maxRecDepth 10000 in
theorem test_decodeTelemetry_C : (decodeTelemetry bufC).crc = 0x5D := by decide
theorem test_erpm_widens :
    (decodeTelemetry #v[0, 0, 0, 0, 0, 0, 0, 0x02, 0x90, 0]).erpm = 65600 := by decide

/-! ## One step of each operation -/

/-- R91's example: the direct path. -/
theorem test_fsTick_direct :
    ifNext (fun t => ((t.chan 0).pri, (t.chan 0).cntDirect, (t.chan 0).fsPc, (t.chan 0).sec))
      (exec (.fsTick 0) (with0 .idle false false)) =
    some (train1046, 1, .trig, (idle3.chan 0).sec) := by decide

/-- S8, P1 step 9: the buffered path, with a shift and the telemetry bit. -/
theorem test_fsTick_buffered :
    ifNext (fun t => ((t.chan 2).sec, (t.chan 2).pri, (t.chan 2).fsPc, (t.chan 2).cntDirect))
      (exec (.fsTick 2)
        (idle3.setChan 2 { idle3.chan 2 with txBusy := true, tlm := true, pri := train1046 })) =
    some (train0011Shifted, train1046, .wait, 0) := by decide

/-- T24 for `CNT_BUFFERED`; S8 step 4. -/
theorem test_fsCopy_wraps :
    ifNext (fun t => ((t.chan 1).pri, (t.chan 1).cntBuffered, (t.chan 1).fsPc))
      (exec (.fsCopy 1) (idle3.setChan 1
        { idle3.chan 1 with sec := train1046, cntBuffered := 0xFFFFFFFF, fsPc := .wait })) =
    some (train1046, 0, .trig) := by decide

/-- R93's example with `FRAME_SLOTS = 20`. -/
theorem test_fsTrig_pads :
    ifNext (fun t => (t.out, (t.chan 0).txBusy, (t.chan 0).fsPc))
      (exec (.fsTrig 0)
        (idle3.setChan 0 { idle3.chan 0 with pri := train1046, fsPc := .trig })) =
    some ([(0, [75, 33, 33, 33, 33, 33, 75, 33, 75, 75, 33, 33, 33, 75, 75, 33, 0, 0, 0, 0])],
      true, .clr) := by decide

/-- R94's example. -/
theorem test_fsClr : ifNext (fun t => ((t.chan 0).tlm, (t.chan 0).fsPc))
    (exec (.fsClr 0) (with0 .clr true true)) = some (false, .idle) := by decide

/-- R95's example. -/
theorem test_txDone : ifNext (fun t => ((t.chan 0).txBusy, (t.chan 0).fsPc))
    (exec (.txDone 0) (with0 .wait true false)) = some (false, .wait) := by decide

/-- T25. -/
theorem test_scheduler_refusals :
    refusal? (exec (.fsTick 0) (with0 .wait true false)) = some .tickOverrun ∧
    refusal? (exec (.txDone 0) (with0 .idle false false)) = some .noTransfer ∧
    refusal? (exec (.fsCopy 0) (with0 .wait true false)) = some .notEnabled ∧
    refusal? (exec (.fsTrig 0) (with0 .clr false false)) = some .notEnabled ∧
    refusal? (exec (.fsClr 0) (with0 .trig false false)) = some .notEnabled := by decide

/-- S7 step 2: the first request goes to channel 0. -/
theorem test_rqTick_valid :
    ifNext (fun t => (t.rrIdx, t.rxWr, (t.chan 0).tlm, (t.chan 1).tlm, (t.chan 2).tlm))
      (exec .rqTick active) = some (0, 0, true, false, false) := by decide

/-- P3 step 7: a short buffer. -/
theorem test_rqTick_short :
    ifNext (fun t => (t.tlmActive, t.rqAbort, t.rrIdx, t.rxWr, t.status)) (exec .rqTick (receiving 0)) =
    some (false, true, 1, 0, 0x00001F08) := by decide

set_option maxRecDepth 10000 in
/-- P2 step 8: the tenth byte of A. -/
theorem test_rxByte_tenth :
    ifNext (fun t => (t.rxBuf, t.rxWr, (t.chan 1).record, t.lastDec, t.status))
      (exec (.rxByte 0x8f) (receiving 9)) =
    some (bufA, 10, { temp := 28, cv := 1238, ca := 0, mah := 23, erpm := 0, crc := 0 }, some 1,
      0x00000104) := by decide

/-- S9: the eleventh byte. -/
theorem test_rxByte_overflow : ifNext (fun t => (t.rxBuf, t.rxWr, t.rxOvf, t.lastDec))
    (exec (.rxByte 0xaa) (receiving 10)) = some (bufA.set 9 0, 10, true, none) := by decide

/-- T82: 2048 is refused and 2047 is not. -/
theorem test_setCode : ifNext (fun t => (t.chan 1).code) (exec (.setCode 1 2047) idle3) = some 2047 ∧
    refusal? (exec (.setCode 1 2048) idle3) = some .codeRange := by decide

/-- R141. -/
theorem test_setTlm : ifNext (fun t => ((t.chan 1).tlm, (t.chan 0).tlm)) (exec (.setTlm 1 true) idle3) =
      some (true, false) ∧
    refusal? (exec (.setTlm 1 true) active) = some .coordinatorActive := by decide

/-- P3 step 10: re-activation. -/
theorem test_tlmStart :
    ifNext (fun t => (t.tlmActive, t.rqAbort, t.rxWr, t.rrIdx))
      (exec .tlmStart { receiving 1 with tlmActive := false, rqAbort := true }) =
      some (true, false, 10, 1) ∧
    refusal? (exec .tlmStart off) = some .telemetryDisabled ∧
    refusal? (exec .tlmStart active) = some .alreadyActive := by decide

/-- P4 steps 24 and 25. -/
theorem test_ackDec : ifNext (fun t => t.status)
    (exec .ackDec { active with lastDec := some 0, rxOvf := true }) = some 0x00001F14 := by decide
theorem test_clrOvf : ifNext (fun t => t.status)
    (exec .clrOvf { active with rxOvf := true }) = some 0x00001F04 := by decide

/-- P2: reads of channel 1 after buffer B; a slot from 16 on reads as 0; T63's values of STATUS. -/
theorem test_rd :
    ifNext (fun t => t.rdOut) (exec (.rd 1 0x08)
      (idle3.setChan 1 { idle3.chan 1 with record := decodeTelemetry bufB })) =
      some [0xFFFFFFFF] ∧
    ifNext (fun t => t.rdOut) (exec (.rd 0 0x33) idle3) = some [0] ∧
    ifNext (fun t => t.rdOut) (exec (.rd 0 0x80) short) = some [0x00001F01] ∧
    ifNext (fun t => t.rdOut) (exec (.rd 0 0x80) noChannel) = some [0x00001F02] ∧
    ifNext (fun t => t.rdOut) (exec (.rd 0 0x80) idle3) = some [0x00001F00] := by decide

/-- T61, T62: where RD is refused. -/
theorem test_rd_refused :
    refusal? (exec (.rd 0 0x06) idle3) = some .noSuchRegister ∧
    refusal? (exec (.rd 1 0x80) idle3) = some .globalWithChannel ∧
    refusal? (exec (.rd 0 0x30) State.reset) = some .noSuchSlot ∧
    refusal? (exec (.rd 0 0x00) noChannel) = some .channelOutOfRange := by decide

/-! ## Reset and the configuration check -/

/-- T70: 15 999 is an error, 16 000 is not. -/
theorem test_interval_check :
    cfgIntervalError cfgShort = true ∧ cfgIntervalError cfg3 = false ∧
    cfgIntervalError ⟨{ Params.standard with speedKhz := 1, tFsUs := 15999 }, by decide⟩ = true ∧
    cfgIntervalError ⟨{ Params.standard with speedKhz := 16000, tFsUs := 1 }, by decide⟩ = false := by
  decide

/-- T72: a halted block. -/
theorem test_halted :
    [Instr.fsTick 0, .rqTick, .rxByte 0, .setCode 0 1, .setTlm 0 true, .tlmStart, .ackDec, .clrOvf].all
      (fun i => refusal? (exec i short) == some .halted) = true := by decide

/-- T73: a reset in mid-run. -/
theorem test_reset_mid_run :
    ifNext (fun t => (t.rrIdx, t.rxWr, t.lastDec, t.tlmActive, (t.chan 0).fsPc, (t.chan 0).txBusy))
      (step { with0 .wait true true with
        tlmActive := true, rrIdx := 0, rxWr := 3, lastDec := some 1,
        inputs := [.reset cfg3 PowerUp.zero] }) =
    some (2, 10, none, false, .idle, false) := by decide

/-! ## States and operands that meet the hypotheses of the statements -/

theorem witness_DecodedWordIsItsEncoding : decode 0xAF000099 = .ok (.rd 15 0x99) := by decide

theorem witness_DecodableExactlyByTableRow :
    decode 0x610000FF = .error .dataNotZero ∧ decode 0x61000001 = .ok (.setTlm 1 true) := by decide

theorem witness_IllegalWordsAreRefused :
    (idle3.present 0xE0000000).inputs = [.word 0xE0000000] ∧ opField 0xE0000000 = 0xE ∧
    opField 0x0F000000 = 0x0 ∧ opField 0xF0000000 = 0xF ∧ zField 0x10800000 ≠ 0 ∧
    (opcodeTable.all fun row => 0x31000000 &&& row.2 != row.1) = true ∧
    decode 0x13000000 = .ok (.fsTick 3) ∧ (Instr.fsTick 3).wellFormed idle3.cfg.nch = false :=
  ⟨rfl, by decide, by decide, by decide, by decide, by decide, by decide, by decide⟩

theorem witness_StepRunsTheDecodedWord :
    (idle3.present 0x70000000).inputs = [.word 0x70000000] ∧
    decode 0x70000000 = .ok .tlmStart := by decide

theorem witness_FrameDeterminesCodeAndTelemetry :
    (2047 : BitVec 16).toNat ≤ 2047 ∧ (0 : BitVec 16).toNat ≤ 2047 ∧
    frameFrom (commandFrom 2047 true) = frameFrom (commandFrom 2047 true) := by decide

theorem witness_FsTickComposesTheTrain :
    (2 : Ch).val < idle3.cfg.nch ∧ idle3.halted = false ∧
    ((with0 .idle true true).chan 0).fsPc = .idle ∧ ((with0 .idle true true).chan 0).txBusy = true ∧
    ((with0 .idle false true).chan 0).txBusy = false ∧ (with0 .idle false true).halted = false ∧
    ((with0 .wait true true).chan 0).fsPc ≠ .idle ∧ short.halted = true ∧
    (15 : Ch).val < short.cfg.nch := by decide

theorem witness_FsCopyMovesTheBufferedTrain :
    (0 : Ch).val < idle3.cfg.nch ∧ (with0 .wait false false).halted = false ∧
    ((with0 .wait false false).chan 0).fsPc = .wait ∧
    ((with0 .wait false false).chan 0).txBusy = false ∧
    ((with0 .wait true false).chan 0).txBusy = true ∧ ((with0 .clr false false).chan 0).fsPc ≠ .wait := by
  decide

theorem witness_FsTrigStartsTheTransfer :
    (0 : Ch).val < idle3.cfg.nch ∧ (with0 .trig false false).halted = false ∧
    ((with0 .trig false false).chan 0).fsPc = .trig ∧ ((with0 .wait false false).chan 0).fsPc ≠ .trig ∧
    idle3.cfg.frameSlots = 20 ∧ State.reset.cfg.frameSlots = 16 := by decide

theorem witness_FsClrSpendsTheFlag :
    (0 : Ch).val < idle3.cfg.nch ∧ (with0 .clr true true).halted = false ∧
    ((with0 .clr true true).chan 0).fsPc = .clr ∧ ((with0 .idle true true).chan 0).fsPc ≠ .clr := by
  decide

theorem witness_TxDoneEndsTheTransfer :
    (0 : Ch).val < idle3.cfg.nch ∧ (with0 .idle true false).halted = false ∧
    ((with0 .idle true false).chan 0).txBusy = true ∧ ((with0 .idle false false).chan 0).txBusy = false := by
  decide

/-- With nothing presented no reset comes next. -/
theorem noResetNext_of_empty {s : State} (h : s.inputs = []) : s.NoResetNext := by
  intro cfg u rest he
  rw [h] at he
  cases he

/-- With a word presented first no reset comes next. -/
theorem noResetNext_present (s : State) (w : EventWord) : (s.present w).NoResetNext := by
  intro cfg u rest he
  cases he

theorem witness_PrimaryUntouchedWhileInFlight :
    ((with0 .idle true true).present 0x10000000).NoResetNext ∧
    (ifNext (fun _ => ()) (step ((with0 .idle true true).present 0x10000000))).isSome = true ∧
    (((with0 .idle true true).present 0x10000000).chan 0).txBusy = true :=
  ⟨noResetNext_present _ _, by decide, by decide⟩

theorem witness_TickMakesItsTrainPending :
    (0 : Ch).val < idle3.cfg.nch ∧ (with0 .idle true true).halted = false ∧
    ((with0 .idle true true).chan 0).fsPc = .idle := by decide

/-- Both ways of being pending, a step that keeps the train and one that sends it. -/
theorem witness_PendingTrainIsSentWhole :
    ((with0 .wait true false).present 0x20000000).NoResetNext ∧
    ((with0 .wait true false).present 0x20000000).Pending 0 (Vector.replicate 16 0) ∧
    (ifNext (fun _ => ()) (step ((with0 .wait true false).present 0x20000000))).isSome = true ∧
    ((with0 .trig false false).present 0xC0000000).NoResetNext ∧
    ((with0 .trig false false).present 0xC0000000).Pending 0 (Vector.replicate 16 0) ∧
    (ifNext (fun _ => ()) (step ((with0 .trig false false).present 0xC0000000))).isSome = true :=
  ⟨noResetNext_present _ _, .inl (by decide), by decide, noResetNext_present _ _, .inr (by decide),
    by decide⟩

/-- Each of the five operations runs in some state. -/
theorem witness_ChannelsAreIndependent :
    (ifNext (fun _ => ()) (exec (.fsTick 0) (with0 .idle true true))).isSome = true ∧
    (ifNext (fun _ => ()) (exec (.fsCopy 0) (with0 .wait false true))).isSome = true ∧
    (ifNext (fun _ => ()) (exec (.fsTrig 0) (with0 .trig false true))).isSome = true ∧
    (ifNext (fun _ => ()) (exec (.fsClr 0) (with0 .clr false true))).isSome = true ∧
    (ifNext (fun _ => ()) (exec (.txDone 0) (with0 .idle true true))).isSome = true ∧
    ((with0 .idle true true).setChan 1 { idle3.chan 1 with code := 5 }).chan 0 =
      (with0 .idle true true).chan 0 := by decide

theorem witness_OneWriteCountedPerTrain :
    ((with0 .idle false false).chan 0).fsPc ≠ .trig ∧
    ifNext (fun t => (t.chan 0).fsPc) (exec (.fsTick 0) (with0 .idle false false)) = some .trig ∧
    ((with0 .wait false false).chan 0).fsPc ≠ .trig ∧
    ifNext (fun t => (t.chan 0).fsPc) (exec (.fsCopy 0) (with0 .wait false false)) = some .trig ∧
    ifNext (fun t => (t.chan 0).fsPc) (exec (.fsTick 0) (with0 .idle true false)) = some .wait := by
  decide

theorem witness_RqTickStartsTheNextRound :
    short.halted = true ∧ idle3.halted = false ∧ idle3.tlmActive = false ∧ active.halted = false ∧
    active.tlmActive = true ∧ active.rrIdx.val < active.cfg.nch ∧
    (∀ c : Ch, c.val < active.cfg.nch → (active.chan c).tlm = false) ∧ active.rxWr = 10 ∧
    active.cfg.nch ≤ (3 : Ch).val := by decide

theorem witness_RqTickAbortsAnInvalidRound :
    (receiving 9).halted = false ∧ (receiving 9).tlmActive = true ∧ (receiving 9).rxWr ≠ 10 ∧
    (active.setTlm 2 true).halted = false ∧ (active.setTlm 2 true).tlmActive = true ∧
    ∃ c : Ch, c.val < (active.setTlm 2 true).cfg.nch ∧ ((active.setTlm 2 true).chan c).tlm = true :=
  ⟨by decide, by decide, by decide, by decide, by decide, 2, by decide, by decide⟩

/-- The operations of a whole round of channel 0 when its tick has reached CLR: FS_CLR 0, then A. -/
def roundOps : List Instr := .fsClr 0 :: bufA.toList.map .rxByte

/-- `active`, channel 0 in CLR: the second half of program P2's round, with a next RQ_TICK after it. -/
def beforeRound : State := active.setChan 0 { active.chan 0 with fsPc := .clr }

set_option maxRecDepth 10000 in
theorem witness_ValidRoundNeedsASpentFlagAndTenBytes :
    beforeRound.rrIdx.val < beforeRound.cfg.nch ∧
    ifNext (fun t => t.tlmActive) (exec .rqTick beforeRound) = some true ∧ Instr.rqTick ∉ roundOps ∧
    ((ifNext id (exec .rqTick beforeRound)).bind fun s1 => (ifNext id (execAll roundOps s1)).bind fun s2 =>
      ifNext (fun t => (t.tlmActive, t.rrIdx)) (exec .rqTick s2)) = some (true, 1) := by decide

set_option maxRecDepth 10000 in
/-- S7 steps 2 to 5: channel 0 is IDLE as it becomes current, then FS_RUN 0 and RX_FRAME A. -/
theorem witness_ValidRoundReadsTheFlagBeforeSpendingIt :
    active.rrIdx.val < active.cfg.nch ∧
    ifNext (fun t => (t.tlmActive, t.rrIdx, (t.chan 0).fsPc)) (exec .rqTick active) =
      some (true, 0, .idle) ∧
    Instr.rqTick ∉ Instr.fsTick 0 :: .fsTrig 0 :: roundOps ∧
    ((ifNext id (exec .rqTick active)).bind fun s1 =>
      (ifNext id (execAll (.fsTick 0 :: .fsTrig 0 :: roundOps) s1)).bind fun s2 =>
        ifNext (fun t => (t.tlmActive, t.rrIdx)) (exec .rqTick s2)) = some (true, 1) := by decide

/-- FS_CLR of the channel that is current, and then the tenth byte of its response. -/
theorem witness_BytesAndTicksCommute :
    let s := (receiving 9).setChan 1 { (receiving 9).chan 1 with fsPc := .clr, tlm := true }
    ((ifNext id (exec (.fsClr 1) s)).bind fun u =>
      ifNext (fun t => (t.rxWr, (t.chan 1).tlm, t.lastDec)) (exec (.rxByte 0x8f) u)) =
      some (10, false, some 1) := by decide

theorem witness_RxByteAppendsAndDecodes :
    short.halted = true ∧ off.halted = false ∧ off.cfg.tlmEn = false ∧ (receiving 0).halted = false ∧
    (receiving 0).cfg.tlmEn = true ∧ (receiving 0).rxWr.val < 9 ∧ (receiving 8).rxWr.val < 9 ∧
    (receiving 9).rxWr.val = 9 ∧ (receiving 9).halted = false ∧ (receiving 9).cfg.tlmEn = true := by
  decide

theorem witness_RxOverflowDropsTheByte :
    (receiving 10).halted = false ∧ (receiving 10).cfg.tlmEn = true ∧ (receiving 10).rxWr = 10 := by
  decide

theorem witness_TlmStartActivatesTheCoordinator :
    idle3.halted = false ∧ idle3.cfg.tlmEn = true ∧ idle3.tlmActive = false ∧
    (2 : Ch).val < idle3.cfg.nch ∧ idle3.cfg.nch ≤ (3 : Ch).val ∧ short.halted = true ∧
    off.cfg.tlmEn = false ∧ active.tlmActive = true := by decide

theorem witness_AckDecAloneClearsTheMarker :
    idle3.halted = false ∧ noChannel.halted = true ∧ { active with lastDec := some 2 }.lastDec ≠ none ∧
    ifNext (fun t => t.lastDec) (exec .ackDec { active with lastDec := some 2 }) = some none := by
  decide

theorem witness_ClrOvfClearsTheReport : idle3.halted = false ∧ noChannel.halted = true := by decide

theorem witness_FirstRoundAsksChannelZero :
    16000 ≤ cfg3.tFsUs * cfg3.speedKhz ∧ 1 ≤ cfg3.nch ∧ cfg3.tlmEn = true := by decide

/-- `active` with channel 0 between FS_TRIG and FS_CLR: the moment of program P3, one step later. -/
theorem witness_RequestInsideATickIsLost :
    let s := active.setChan 0 { active.chan 0 with fsPc := .clr, txBusy := true }
    s.halted = false ∧ s.tlmActive = true ∧ s.rrIdx.val < s.cfg.nch ∧
      (0 : Ch).val = (s.rrIdx.val + 1) % s.cfg.nch ∧ (s.chan 0).fsPc = .clr ∧
      (∀ k : Ch, k.val < s.cfg.nch → (s.chan k).tlm = false) ∧ s.rxWr = 10 := by decide

theorem witness_SetCodeWritesTheCode :
    (2 : Ch).val < idle3.cfg.nch ∧ idle3.halted = false ∧ (2047 : BitVec 16).toNat ≤ 2047 ∧
    2047 < (2048 : BitVec 16).toNat ∧ short.halted = true ∧ (2 : Ch).val < short.cfg.nch := by decide

theorem witness_SetTlmWritesTheFlag :
    (2 : Ch).val < idle3.cfg.nch ∧ idle3.halted = false ∧ idle3.tlmActive = false ∧
    active.tlmActive = true ∧ (2 : Ch).val < active.cfg.nch ∧ short.halted = true := by decide

theorem witness_RdReturnsChannelRegisters :
    (2 : Ch).val < idle3.cfg.nch ∧ (15 : Ch).val < short.cfg.nch ∧ short.halted = true := by decide

theorem witness_RdSignExtendsTheTemperature : (0 : Ch).val < off.cfg.nch := by decide

theorem witness_RdReturnsBufferSlots :
    (2 : Ch).val < idle3.cfg.nch ∧ 15 < idle3.cfg.frameSlots ∧ 19 < idle3.cfg.frameSlots ∧
    (15 : Ch).val < State.reset.cfg.nch ∧ 15 < State.reset.cfg.frameSlots := by decide

/-- One number in each range of each clause, at its ends. -/
theorem witness_RdIsRefusedWithoutARegister :
    (0x0E : Byte).toNat = 0x0E ∧ (0x1F : Byte).toNat < 0x20 ∧ (0x34 : Byte).toNat = 0x34 ∧
    (0x7F : Byte).toNat < 0x80 ∧ 0x9A ≤ (0x9A : Byte).toNat ∧
    0x20 + State.reset.cfg.frameSlots ≤ (0x30 : Byte).toNat ∧ (0x3F : Byte).toNat < 0x40 ∧
    0x40 + State.reset.cfg.frameSlots ≤ (0x50 : Byte).toNat ∧
    0x80 ≤ (0x80 : Byte).toNat ∧ (1 : Ch) ≠ 0 ∧ (0x00 : Byte).toNat < 0x80 ∧
    noChannel.cfg.nch ≤ (0 : Ch).val ∧ idle3.cfg.nch ≤ (3 : Ch).val := by decide

theorem witness_ResetLeavesTheStatedValues :
    { active with inputs := [.reset cfgShort PowerUp.zero, .word 0x30000000] }.inputs =
      .reset cfgShort PowerUp.zero :: [.word 0x30000000] := rfl

theorem witness_ConfigurationErrorsHaltTheBlock :
    (ifNext (fun _ => ()) (exec (.fsTick 0) (with0 .idle true true))).isSome = true ∧
    short.cfgErrIvl = true ∧ noChannel.cfgErrNch = true := by decide

theorem witness_HaltedBlockOnlyAnswersReads :
    (short.present 0xA0000080).halted = true ∧ (short.present 0xA0000080).NoResetNext ∧
    (ifNext (fun _ => ()) (step (short.present 0xA0000080))).isSome = true :=
  ⟨by decide, noResetNext_present _ _, by decide⟩

/-- Parameters for each clause: too many channels, no speed, 18 slots, a shift of 8, a shift of 16
with a duty value that loses bits; and parameters at the upper ends of the domain. -/
theorem witness_ConfigurationsOutsideTheDomainAreRefused :
    16 < { Params.standard with nch := 17 }.nch ∧
    { Params.standard with frameSlots := 18 }.frameSlots ≠ 16 ∧
    { Params.standard with frameSlots := 18 }.frameSlots ≠ 20 ∧
    8 ∈ { Params.standard with shift := [8] }.shift ∧
    65536 ≤ { Params.standard with shift := [16], high := 65536 }.high.toNat ∧
    (Config.build? { Params.standard with shift := List.replicate 16 16, high := 65535 }).isSome = true ∧
    Config.build? { Params.standard with nch := 1, shift := [16], high := 65536 } = none ∧
    Config.build? { Params.standard with speedKhz := 0 } = none := by decide

/-- Channel 2 is being asked, its tick in progress; channel 0 waits for a transfer in flight. -/
def midRound : State :=
  { (active.setChan 0 { active.chan 0 with txBusy := true, fsPc := .wait, code := 2047 }).setChan 2
      { active.chan 2 with tlm := true, fsPc := .trig } with
    rxWr := 3, lastDec := some 1, out := [(0, paddedTrain train1046 20)],
    inputs := [.word 0xC2000000] }

theorem witness_StepKeepsTheInvariants :
    midRound.Inv ∧ (ifNext (fun _ => ()) (step midRound)).isSome = true := by
  refine ⟨⟨by unfold State.CursorInRange; decide, ?_, by unfold State.TrigMeansNotBusy; decide,
    by unfold State.OneFlagAtATime; decide, by unfold State.ConfigChecked; decide,
    by unfold State.DisabledInactive; decide, by unfold State.AbortedInactive; decide,
    by unfold State.CodesLegal; decide, ?_⟩, by decide⟩
  · intro k hk
    have : k = 1 := (Option.some.inj hk).symm
    subst this
    decide
  · intro e he
    have : e = (0, paddedTrain train1046 20) := List.mem_singleton.mp he
    subst this
    refine ⟨by decide, by decide, fun j h1 h2 => ?_⟩
    have h2 : j < 20 := h2
    interval_cases j <;> decide

/-- A slot and a byte that a write does change. -/
theorem witness_BuffersChangeOnlyByTheirWriters :
    ifNext (fun t => (t.chan 0).priSlot 15) (exec (.fsTick 0) (with0 .idle false false)) = some 33 ∧
    ((with0 .idle false false).chan 0).priSlot 15 = 0 ∧
    ifNext (fun t => (t.chan 0).secSlot 0) (exec (.fsTick 0) (with0 .idle true false)) = some 75 ∧
    ((with0 .idle true false).chan 0).secSlot 0 = 0 ∧
    ifNext (fun t => t.rxBuf[9]) (exec (.rxByte 0x8f) (receiving 9)) = some 0x8f ∧
    (receiving 9).rxBuf[9] = 0 := by decide

/-- One change of each kind that the statement speaks of: the registers of a channel. -/
theorem witness_RegistersChangeOnlyByTheirWriters :
    ifNext (fun t => (t.chan 1).code) (exec (.setCode 1 7) idle3) = some 7 ∧
    ifNext (fun t => ((t.chan 0).tlm, t.rrIdx)) (exec .rqTick active) = some (true, 0) ∧
    ifNext (fun t => (t.chan 1).tlm) (exec (.setTlm 1 true) idle3) = some true ∧
    ifNext (fun t => (t.chan 0).tlm) (exec (.fsClr 0) (with0 .clr true true)) = some false ∧
    ifNext (fun t => (t.chan 2).tlm) (exec .rqTick (active.setTlm 2 true)) = some false ∧
    ifNext (fun t => (t.chan 1).tlm) (exec .tlmStart (idle3.setTlm 1 true)) = some false ∧
    ifNext (fun t => (t.chan 1).tlm) (exec (.setTlm 1 false) (idle3.setTlm 1 true)) = some false ∧
    ifNext (fun t => ((t.chan 0).cntDirect, (t.chan 0).fsPc))
      (exec (.fsTick 0) (with0 .idle false false)) = some (1, .trig) ∧
    ifNext (fun t => ((t.chan 0).cntBuffered, (t.chan 0).fsPc))
      (exec (.fsCopy 0) (with0 .wait false false)) = some (1, .trig) ∧
    ifNext (fun t => ((t.chan 0).txBusy, (t.chan 0).fsPc, t.out.length))
      (exec (.fsTrig 0) (with0 .trig false false)) = some (true, .clr, 1) ∧
    ifNext (fun t => (t.chan 0).txBusy) (exec (.txDone 0) (with0 .idle true false)) = some false := by
  decide

/-- The same for the registers there is one of. -/
theorem witness_RegistersChangeOnlyByTheirWriters_block :
    ifNext (fun t => (t.rxWr, t.rrIdx)) (exec .rqTick active) = some (0, 0) ∧
    ifNext (fun t => (t.rxWr, t.lastDec)) (exec (.rxByte 1) (receiving 9)) = some (10, some 1) ∧
    ifNext (fun t => (t.rxWr, t.tlmActive, t.rqAbort))
      (exec .tlmStart { idle3 with rqAbort := true, rxWr := 3 }) = some (10, true, false) ∧
    ifNext (fun t => t.lastDec) (exec .ackDec { idle3 with lastDec := some 2 }) = some none ∧
    ifNext (fun t => (t.tlmActive, t.rqAbort)) (exec .rqTick (receiving 3)) = some (false, true) ∧
    ifNext (fun t => t.rxOvf) (exec (.rxByte 1) (receiving 10)) = some true ∧
    ifNext (fun t => t.rxOvf) (exec .clrOvf { idle3 with rxOvf := true }) = some false ∧
    ifNext (fun t => t.rdOut) (exec (.rd 0 0x82) idle3) = some [10] := by decide

theorem witness_RecordsComeOnlyFromWholeResponses :
    ((receiving 9).chan 1).record = TelemetryRecord.zero ∧
    ifNext (fun t => (t.chan 1).record.cv) (exec (.rxByte 0x8f) (receiving 9)) = some 1238 := by decide

theorem witness_EnabledInternalOperationFires :
    idle3.inputs = [] ∧ (∀ c : Ch, c.val < idle3.cfg.nch → idle3.internalOp? c = none) ∧
    short.inputs = [] ∧ short.halted = true ∧ (with0 .wait false true).inputs = [] ∧
    (with0 .wait false true).halted = false ∧ (0 : Ch).val < (with0 .wait false true).cfg.nch ∧
    (with0 .wait false true).internalOp? 0 = some (.fsCopy 0) := by decide

/-- Each number of operations a channel can have before it, and a channel that waits for its engine. -/
theorem witness_InternalOperationsRunOut :
    (with0 .wait false true).inputs = [] ∧ (with0 .wait false true).halted = false ∧
    (with0 .wait false true).pendingOps = 3 ∧ (with0 .trig false true).pendingOps = 2 ∧
    (with0 .clr true true).pendingOps = 1 ∧ idle3.pendingOps = 0 ∧
    (with0 .wait true true).pendingOps = 0 := by decide

end Sys2Proof.Machine.Tests
end

/-! PROOFS. Reset and the configuration-error bits (10_state.md R26, R30). -/

namespace Sys2Proof.Machine

/-! ## The state a reset leaves -/

/-- A presented reset is what the next step performs, whatever the state (R180). -/
theorem step_of_reset {s : State} {cfg : Config} {u : PowerUp} {rest : List Input}
    (h : s.inputs = .reset cfg u :: rest) :
    step s = .next ((s.withInputs rest).applyReset cfg u) := by
  simp [step, State.nextAction, h]

/-- The registers of a channel after a reset do not depend on the state before it (R30, R180). -/
@[simp] theorem State.chan_applyReset (s : State) (cfg : Config) (u : PowerUp) (c : Ch) :
    (s.applyReset cfg u).chan c = u.chans[c].channel :=
  State.chan_resetWith cfg u c

/-- CfgInterval (R151). -/
theorem cfgIntervalError_eq_true (cfg : Config) :
    cfgIntervalError cfg = true ↔ cfg.tFsUs * cfg.speedKhz < 16000 := decide_eq_true_iff

/-- CfgChannels (R152). -/
theorem cfgChannelsError_eq_true (cfg : Config) :
    cfgChannelsError cfg = true ↔ cfg.nch < 1 := decide_eq_true_iff

/-- Settles O44: the step performs the presented reset, and each row of R30 is read off the state
it leaves. -/
theorem resetLeavesTheStatedValues : Obligations.ResetLeavesTheStatedValues := by
  intro s cfg u rest hreset
  refine ⟨_, step_of_reset hreset, rfl, fun c => ?channel, resetIndex_val cfg, rfl, rfl, rfl, rfl,
    rfl, rfl, rfl, cfgIntervalError_eq_true cfg, cfgChannelsError_eq_true cfg⟩
  case channel =>
    rw [State.chan_applyReset]
    exact ⟨rfl, rfl, rfl, rfl, rfl, rfl, rfl, rfl, rfl, fun _ hj =>
      ⟨Channel.priSlot_of_ge _ hj, Channel.secSlot_of_ge _ hj⟩⟩

/-! ## Operations of a halted block -/

/-- No operation ends in a fault: an error condition is a change of state (R42, R160). -/
theorem exec_ne_fault (i : Instr) (s : State) (f : Fault) : exec i s ≠ .fault f := by
  cases i with
  | fsTick c => simp [exec, execFsTick]
  | fsCopy c => simp [exec, execFsCopy]
  | fsTrig c => simp [exec, execFsTrig]
  | fsClr c => simp [exec, execFsClr]
  | txDone c => simp [exec, execTxDone]
  | rqTick => simp [exec, execRqTick]
  | rxByte b => simp [exec, execRxByte]
  | setCode c v => simp [exec, execSetCode]
  | setTlm c v => simp [exec, execSetTlm]
  | tlmStart => simp [exec, execTlmStart]
  | ackDec => simp [exec, execAckDec]
  | clrOvf => simp [exec, execClrOvf]
  | rd c r => cases hreg : Reg.ofNumber r <;> simp [exec, execRd, hreg, readNamed]

/-- An operation that answers no next state is refused. -/
theorem exec_refused_of_no_next {i : Instr} {s : State} (h : ∀ t, exec i s ≠ .next t) :
    ∃ why, exec i s = .refused why := by
  cases he : exec i s with
  | next t => exact absurd he (h t)
  | fault f => exact absurd he (exec_ne_fault i s f)
  | refused why => exact ⟨why, rfl⟩

/-- A halted block refuses every operation but RD (R26). -/
theorem exec_refused_of_halted {i : Instr} {s : State} (hhalt : s.halted = true)
    (hrd : ∀ c r, i ≠ .rd c r) : ∃ why, exec i s = .refused why := by
  refine exec_refused_of_no_next fun t he => ?_
  rcases (exec_block he).run with hrun | ⟨c, r, rfl⟩
  · simp [hhalt] at hrun
  · exact hrd c r rfl

/-- Settles O45: the bits are those computed at reset, the block's own registers change only as
`BlockStep` says, and a halted block refuses every operation but RD. -/
theorem configurationErrorsHaltTheBlock : Obligations.ConfigurationErrorsHaltTheBlock := by
  refine ⟨fun cfg u => ⟨cfgIntervalError_eq_true cfg, cfgChannelsError_eq_true cfg⟩,
    fun i s t he => ?unchanged, fun i s herr hrd => ?refused⟩
  case unchanged =>
    have hblock := exec_block he
    exact ⟨hblock.cfg, hblock.ivl, hblock.nch⟩
  case refused => exact exec_refused_of_halted ((State.halted_eq_true s).mpr herr) hrd

end Sys2Proof.Machine

/-! PROOFS. The packet codec (40_packet_codec.md R80 to R83). -/

namespace Sys2Proof.Machine

/-! ## Each function bit by bit -/

/-- The shifted code leaves bit 0 free for the telemetry bit, so the two do not overlap. -/
theorem shiftedCode_and_telemetry (code : BitVec 16) (t : Bool) :
    (code <<< 1) &&& (BitVec.ofBool t).setWidth 16 = 0#16 := by
  ext j
  cases j <;> simp

/-- The Command is a sum: its two parts share no bit (R80). -/
theorem commandFrom_eq_add (code : BitVec 16) (t : Bool) :
    commandFrom code t = (code <<< 1) + (BitVec.ofBool t).setWidth 16 :=
  (BitVec.add_eq_or_of_and_eq_zero _ _ (shiftedCode_and_telemetry code t)).symm

/-- The mask of the fold keeps the low four bits. -/
theorem getLsbD_nibbleMask (j : Nat) : (0x000F#16).getLsbD j = decide (j < 4) :=
  Nat.testBit_two_pow_sub_one 4 j

/-- Bit `j` of the checksum folds bit `j` of the three low nibbles and is 0 above them (R81). -/
theorem getLsbD_checksum4 (command : BitVec 16) (j : Nat) :
    (checksum4 command).getLsbD j = (decide (j < 4) &&
      (command.getLsbD j ^^ command.getLsbD (4 + j) ^^ command.getLsbD (8 + j))) := by
  simp only [checksum4, BitVec.getLsbD_and, BitVec.getLsbD_xor, BitVec.getLsbD_ushiftRight,
    getLsbD_nibbleMask]

/-- Below bit 4 a frame is the checksum: the shifted Command has no bit there (R82). -/
theorem getLsbD_frameFrom_low (command : BitVec 16) {j : Nat} (hj : j < 4) :
    (frameFrom command).getLsbD j = (checksum4 command).getLsbD j := by
  simp [frameFrom, hj]

/-- From bit 4 on a frame is the Command: the checksum has no bit there (R82). -/
theorem getLsbD_frameFrom_high (command : BitVec 16) {j : Nat} (hj : j < 12) :
    (frameFrom command).getLsbD (4 + j) = command.getLsbD j := by
  have hwidth : 4 + j < 16 := by omega
  simp [frameFrom, getLsbD_checksum4, hwidth, -BitVec.getLsbD_eq_getElem]

/-- Slot `i` carries frame bit `15 - i` (R83). -/
@[simp] theorem getElem_pulseTrain (frame : BitVec 16) (high low : Slot) (shift : Nat) {i : Nat}
    (hi : i < 16) :
    (pulseTrain frame high low shift)[i] = slotOf high low shift (frame.getLsbD (15 - i)) :=
  Vector.getElem_ofFn hi

/-! ## The statements -/

/-- Settles O7: the sum of the two disjoint parts, read as a number. -/
theorem commandIsCodeThenTelemetry : Obligations.CommandIsCodeThenTelemetry := by
  intro code t
  have htlm : ((BitVec.ofBool t).setWidth 16).toNat = t.toNat := by cases t <;> rfl
  rw [commandFrom_eq_add, BitVec.toNat_add, htlm, BitVec.toNat_shiftLeft, Nat.shiftLeft_eq]
  omega

/-- Settles O8: the two words agree bit by bit, both 0 from bit 4 on. -/
theorem checksumFoldsThreeNibbles : Obligations.ChecksumFoldsThreeNibbles := by
  intro command
  refine BitVec.eq_of_getLsbD_eq fun j hj => ?_
  rw [getLsbD_checksum4]
  by_cases hlow : j < 4
  · simp [hlow, hj]
  · simp [hlow]

/-- Settles O9: each part of the frame, bit by bit. -/
theorem frameIsCommandThenChecksum : Obligations.FrameIsCommandThenChecksum := by
  refine fun command => ⟨BitVec.eq_of_getLsbD_eq fun j hj => ?high,
    BitVec.eq_of_getLsbD_eq fun j hj => ?low⟩
  case high =>
    simp only [BitVec.getLsbD_extractLsb', getLsbD_frameFrom_high command hj, Nat.zero_add]
  case low =>
    simp only [BitVec.getLsbD_extractLsb', Nat.zero_add, getLsbD_frameFrom_low command hj]

/-- Settles O13: the slot of an index below sixteen. -/
theorem pulseTrainIsMostSignificantFirst : Obligations.PulseTrainIsMostSignificantFirst :=
  fun frame high low shift i => getElem_pulseTrain frame high low shift i.isLt

end Sys2Proof.Machine

/-! PROOFS. The frame scheduler: what each operation changes in its channel, where it is refused, and
that it depends on nothing else (41_frame_scheduler.md R91 to R95, R101). -/

namespace Sys2Proof.Machine

/-! ## What a tick leaves in its channel -/

/-- Slot `i` of the composed train carries bit `15 - i` of the frame of the code and the flag (R91). -/
theorem State.getElem_train (s : State) (c : Ch) {i : Nat} (hi : i < 16) :
    (s.train c)[i] =
      (if (frameFrom (commandFrom (s.chan c).code (s.chan c).tlm)).getLsbD (15 - i)
        then s.cfg.high else s.cfg.low) <<< s.cfg.shiftOf c :=
  getElem_pulseTrain _ _ _ _ hi

/-- The buffered path: the train waits in `SEC[c]` (R91). -/
theorem State.tick_of_busy {s : State} {c : Ch} (hbusy : (s.chan c).txBusy = true) :
    s.tick c = s.setChan c { s.chan c with sec := s.train c, fsPc := .wait } := by
  simp [State.tick, hbusy]

/-- The direct path: the train stands in `PRI[c]`, counted (R91). -/
theorem State.tick_of_not_busy {s : State} {c : Ch} (hbusy : (s.chan c).txBusy = false) :
    s.tick c = s.setChan c { s.chan c with
      pri := s.train c, cntDirect := (s.chan c).cntDirect + 1, fsPc := .trig } := by
  simp [State.tick, hbusy]

/-- The channel a tick leaves depends on the configuration and that channel alone (R91, R101). -/
theorem State.chan_tick_congr {s s' : State} {c : Ch} (hcfg : s'.cfg = s.cfg)
    (hchan : s'.chan c = s.chan c) : (s'.tick c).chan c = (s.tick c).chan c := by
  have htrain : s'.train c = s.train c := by rw [State.train, State.train, hcfg, hchan]
  cases hbusy : (s.chan c).txBusy with
  | false =>
    rw [State.tick_of_not_busy hbusy, State.tick_of_not_busy (hchan ▸ hbusy)]
    simp [hchan, htrain]
  | true =>
    rw [State.tick_of_busy hbusy, State.tick_of_busy (hchan ▸ hbusy)]
    simp [hchan, htrain]

/-- Replacing a channel leaves the rest of the state alone. -/
theorem State.onlyChannel_setChan (s : State) (c : Ch) (ch : Channel) :
    s.OnlyChannel (s.setChan c ch) c := by
  rw [State.OnlyChannel, State.chan_setChan_self]

/-! ## Each operation -/

/-- Settles O17: the state is `State.tick`, read on each of its two paths; outside IDLE or halted no
next state is answered. -/
theorem fsTickComposesTheTrain : Obligations.FsTickComposesTheTrain := by
  refine fun s c hc => ⟨fun hrun hidle => ⟨s.tick c,
    (execFsTick_eq_next c s _).mpr ⟨hc, hrun, hidle, rfl⟩, s.tick_eq_setChan c,
    fun hbusy => ?buffered, fun hbusy => ?direct⟩,
    fun hoff => exec_refused_of_no_next fun t ht => ?refused⟩
  case buffered =>
    rw [State.tick_of_busy hbusy, State.chan_setChan_self]
    exact ⟨rfl, fun i => s.getElem_train c i.isLt⟩
  case direct =>
    rw [State.tick_of_not_busy hbusy, State.chan_setChan_self]
    exact ⟨rfl, fun i => s.getElem_train c i.isLt⟩
  case refused =>
    obtain ⟨-, hrun, hidle, -⟩ := (execFsTick_eq_next c s t).mp ht
    rcases hoff with hhalt | hpc
    · simp [hrun] at hhalt
    · exact hpc hidle

/-- Settles O18: the enabled state is WAIT without a transfer, and the copy is the whole buffer. -/
theorem fsCopyMovesTheBufferedTrain : Obligations.FsCopyMovesTheBufferedTrain := by
  refine fun s c hc hrun => ⟨fun hwait hbusy => ⟨_,
    (execFsCopy_eq_next c s _).mpr ⟨hc, hrun, ⟨hwait, hbusy⟩, rfl⟩, s.onlyChannel_setChan c _, ?moved⟩,
    fun hoff => exec_refused_of_no_next fun t ht => ?refused⟩
  case moved =>
    rw [State.chan_setChan_self]
    exact ⟨rfl, fun _ => rfl⟩
  case refused =>
    obtain ⟨-, -, ⟨hwait, hidle⟩, -⟩ := (execFsCopy_eq_next c s t).mp ht
    rcases hoff with hpc | hbusy
    · exact hpc hwait
    · simp [hidle] at hbusy

/-- Settles O19: the transfer is `Channel.transfer`, whose slots are those of `PRI[c]` and then the
hardwired zeros. -/
theorem fsTrigStartsTheTransfer : Obligations.FsTrigStartsTheTransfer := by
  refine fun s c hc hrun => ⟨fun htrig => ⟨_, (s.chan c).transfer s.cfg.frameSlots,
    (execFsTrig_eq_next c s _).mpr ⟨hc, hrun, htrig, rfl⟩, s.onlyChannel_setChan c _,
    State.chan_setChan_self s c _, rfl, Channel.transfer_length _ _,
    fun j hj => Channel.transfer_getElem? _ hj⟩,
    fun hoff => exec_refused_of_no_next fun t ht => ?refused⟩
  case refused =>
    obtain ⟨-, -, htrig, -⟩ := (execFsTrig_eq_next c s t).mp ht
    exact hoff htrig

/-- Settles O20: the new flag does not depend on the old one. -/
theorem fsClrSpendsTheFlag : Obligations.FsClrSpendsTheFlag := by
  refine fun s c hc hrun => ⟨fun hclr => ⟨_, (execFsClr_eq_next c s _).mpr ⟨hc, hrun, hclr, rfl⟩,
    s.onlyChannel_setChan c _, s.chan_setChan_self c _⟩,
    fun hoff => exec_refused_of_no_next fun t ht => ?refused⟩
  case refused =>
    obtain ⟨-, -, hclr, -⟩ := (execFsClr_eq_next c s t).mp ht
    exact hoff hclr

/-- Settles O21: FS_PC plays no part, so the bit alone decides. -/
theorem txDoneEndsTheTransfer : Obligations.TxDoneEndsTheTransfer := by
  refine fun s c hc hrun => ⟨fun hbusy => ⟨_, (execTxDone_eq_next c s _).mpr ⟨hc, hrun, hbusy, rfl⟩,
    s.onlyChannel_setChan c _, s.chan_setChan_self c _⟩,
    fun hoff => exec_refused_of_no_next fun t ht => ?refused⟩
  case refused =>
    obtain ⟨-, -, hbusy, -⟩ := (execTxDone_eq_next c s t).mp ht
    simp [hoff] at hbusy

/-! ## Channels apart -/

/-- The only way a scheduler operation or completion of channel c changes the state: that channel is
replaced and transfers are appended to `OUT`. -/
def State.update (s : State) (c : Ch) (ch : Channel) (sent : List (Ch × List Slot)) : State :=
  { s.setChan c ch with out := s.out ++ sent }

theorem State.chan_update (s : State) (c k : Ch) (ch : Channel) (sent : List (Ch × List Slot)) :
    (s.update c ch sent).chan k = if k = c then ch else s.chan k :=
  s.chan_setChan ch c k

/-- With nothing sent only the channel is replaced. -/
theorem State.setChan_eq_update (s : State) (c : Ch) (ch : Channel) :
    s.setChan c ch = s.update c ch [] := by
  rw [State.update, List.append_nil]; rfl

/-- A scheduler operation or completion of channel c that runs in one state makes one change, and
makes the same change in every state with the same configuration, halted or not alike, and the same
channel c: nothing else is read (R101). -/
theorem exec_reads_own_channel {c : Ch} {i : Instr} {s t : State}
    (hi : i ∈ [Instr.fsTick c, .fsCopy c, .fsTrig c, .fsClr c, .txDone c])
    (h : exec i s = .next t) :
    ∃ sent, ∀ s' : State, s'.cfg = s.cfg → s'.halted = s.halted → s'.chan c = s.chan c →
      exec i s' = .next (s'.update c (t.chan c) sent) := by
  simp only [List.mem_cons, List.not_mem_nil, or_false] at hi
  rcases hi with rfl | rfl | rfl | rfl | rfl
  · obtain ⟨hc, hrun, hidle, rfl⟩ := (execFsTick_eq_next c s t).mp h
    refine ⟨[], fun s' hcfg hhalt hchan => (execFsTick_eq_next c s' _).mpr
      ⟨hcfg ▸ hc, hhalt.trans hrun, hchan ▸ hidle, ?_⟩⟩
    rw [← State.setChan_eq_update, ← State.chan_tick_congr hcfg hchan, ← State.tick_eq_setChan]
  · obtain ⟨hc, hrun, hready, rfl⟩ := (execFsCopy_eq_next c s t).mp h
    refine ⟨[], fun s' hcfg hhalt hchan => (execFsCopy_eq_next c s' _).mpr
      ⟨hcfg ▸ hc, hhalt.trans hrun, hchan ▸ hready, ?_⟩⟩
    rw [hchan, State.setChan_eq_update, State.chan_setChan_self]
  · obtain ⟨hc, hrun, htrig, rfl⟩ := (execFsTrig_eq_next c s t).mp h
    refine ⟨[(c, (s.chan c).transfer s.cfg.frameSlots)],
      fun s' hcfg hhalt hchan => (execFsTrig_eq_next c s' _).mpr
        ⟨hcfg ▸ hc, hhalt.trans hrun, hchan ▸ htrig, ?_⟩⟩
    rw [hchan, hcfg, ← State.update, ← State.update, State.chan_update, if_pos rfl]
  · obtain ⟨hc, hrun, hclr, rfl⟩ := (execFsClr_eq_next c s t).mp h
    refine ⟨[], fun s' hcfg hhalt hchan => (execFsClr_eq_next c s' _).mpr
      ⟨hcfg ▸ hc, hhalt.trans hrun, hchan ▸ hclr, ?_⟩⟩
    rw [hchan, State.setChan_eq_update, State.chan_setChan_self]
  · obtain ⟨hc, hrun, hbusy, rfl⟩ := (execTxDone_eq_next c s t).mp h
    refine ⟨[], fun s' hcfg hhalt hchan => (execTxDone_eq_next c s' _).mpr
      ⟨hcfg ▸ hc, hhalt.trans hrun, hchan ▸ hbusy, ?_⟩⟩
    rw [hchan, State.setChan_eq_update, State.chan_setChan_self]

/-- Settles O25: the one change, made in `s` itself and in the other state. -/
theorem channelsAreIndependent : Obligations.ChannelsAreIndependent := by
  intro c i hi s s' t h
  obtain ⟨sent, hexec⟩ := exec_reads_own_channel hi h
  have ht : t = s.update c (t.chan c) sent := by
    simpa [h] using hexec s rfl rfl rfl
  refine ⟨fun k hk => ?frame, fun hcfg hhalt hchan =>
    ⟨_, sent, hexec s' hcfg hhalt hchan, ?channel, congrArg State.out ht, rfl⟩⟩
  case frame => rw [ht, State.chan_update, if_neg hk]
  case channel => rw [State.chan_update, if_pos rfl]

end Sys2Proof.Machine

/-! PROOFS. The host's operations on the telemetry coordinator: activation, the marker and the
overflow report (42_telemetry_coordinator.md R113 to R115). -/

namespace Sys2Proof.Machine

/-! ## Activation -/

/-- An existing channel after the activation has lost its flag and nothing else (R113). -/
theorem State.chan_activate_of_lt (s : State) {c : Ch} (hc : c.val < s.cfg.nch) :
    s.activate.chan c = { s.chan c with tlm := false } := by
  rw [State.activate_chan, State.chan_clearFlags, if_pos hc]

/-- The loop of R113 stops at NCH. -/
theorem State.chan_activate_of_ge (s : State) {c : Ch} (hc : s.cfg.nch ≤ c.val) :
    s.activate.chan c = s.chan c := by
  rw [State.activate_chan, State.chan_clearFlags, if_neg (Nat.not_lt.mpr hc)]

/-- Settles O31: the state is `State.activate`, read channel by channel; each refusal contradicts one
of the preconditions of a next state. -/
theorem tlmStartActivatesTheCoordinator : Obligations.TlmStartActivatesTheCoordinator := by
  refine fun s => ⟨fun hrun hen hinactive => ⟨s.activate,
    (execTlmStart_eq_next s _).mpr ⟨hrun, hen, hinactive, rfl⟩, rfl,
    fun _ => s.chan_activate_of_lt, fun _ => s.chan_activate_of_ge⟩,
    fun hoff => exec_refused_of_no_next fun t ht => ?refused⟩
  case refused =>
    obtain ⟨hrun, hen, hinactive, -⟩ := (execTlmStart_eq_next s t).mp ht
    rcases hoff with hhalt | hdisabled | hactive
    · simp [hrun] at hhalt
    · simp [hen] at hdisabled
    · simp [hinactive] at hactive

/-! ## The marker and the overflow report -/

/-- Settles O32: of the three ways an operation can leave the marker, only ACK_DEC's leaves it NONE
where it was not; a decode names a channel. -/
theorem ackDecAloneClearsTheMarker : Obligations.AckDecAloneClearsTheMarker := by
  refine ⟨fun s => ⟨fun hrun => (execAckDec_eq_next s _).mpr ⟨hrun, rfl⟩,
    fun hhalt => exec_refused_of_halted hhalt nofun⟩, fun i s t he hmarked hcleared => ?alone⟩
  case alone =>
    rcases (exec_block he).marker with hkept | ⟨hack, -⟩ | ⟨b, -, -, hdecoded⟩
    · exact absurd (hkept.symm.trans hcleared) hmarked
    · exact hack
    · simp [hcleared] at hdecoded

/-- Settles O33: CLR_OVF's one precondition is that the block runs. -/
theorem clrOvfClearsTheReport : Obligations.ClrOvfClearsTheReport :=
  fun s => ⟨fun hrun => (execClrOvf_eq_next s _).mpr ⟨hrun, rfl⟩,
    fun hhalt => exec_refused_of_halted hhalt nofun⟩

end Sys2Proof.Machine

/-! PROOFS. Exceptions: the overflow of the receive buffer (60_exceptions.md R153). -/

namespace Sys2Proof.Machine

/-- A full buffer has no slot for one more byte, so nothing is appended or decoded; only the report
is set (R112, R153). -/
theorem State.receive_of_full {s : State} (b : Byte) (hfull : s.rxWr = 10) :
    s.receive b = { s with rxOvf := true } := by
  have hnoSlot : ¬ s.rxWr.val < rxCap := by rw [hfull]; decide
  rcases s.receive_cases b with ⟨-, hdropped⟩ | ⟨hslot, -⟩ | ⟨hslot, -⟩
  · exact hdropped
  · exact absurd hslot hnoSlot
  · exact absurd hslot hnoSlot

/-- Settles O30: with telemetry enabled RX_BYTE is `State.receive`, here on a full buffer. -/
theorem rxOverflowDropsTheByte : Obligations.RxOverflowDropsTheByte := by
  intro s b hrun hen hfull
  refine (execRxByte_eq_next b s _).mpr ⟨hrun, ?_⟩
  rw [if_pos hen, State.receive_of_full b hfull]

end Sys2Proof.Machine

/-! PROOFS. The event word: its fields, the round trip of decoder and encoder, and the rows of the
opcode table (30_encoding.md R66 to R68). -/

namespace Sys2Proof.Machine

/-! ## The fields of a word -/

@[simp] theorem opField_eventWord (op ch : BitVec 4) (data : BitVec 16) :
    opField (eventWord op ch data) = op := by
  have hfields : (op ++ (ch ++ (0#8 ++ data)) : BitVec (4 + (4 + (8 + 16)))) = eventWord op ch data := by
    rw [eventWord, BitVec.append_assoc, BitVec.append_assoc]; rfl
  rw [← hfields]
  exact BitVec.extractLsb'_append_eq_left

@[simp] theorem chField_eventWord (op ch : BitVec 4) (data : BitVec 16) :
    chField (eventWord op ch data) = ch := by
  calc chField (eventWord op ch data)
      = (op ++ ch ++ 0#8).extractLsb' 8 4 := BitVec.extractLsb'_append_eq_of_le (by omega)
    _ = (op ++ ch).extractLsb' 0 4 := BitVec.extractLsb'_append_eq_of_le (by omega)
    _ = ch := BitVec.extractLsb'_append_eq_right

@[simp] theorem zField_eventWord (op ch : BitVec 4) (data : BitVec 16) :
    zField (eventWord op ch data) = 0 := by
  calc zField (eventWord op ch data)
      = (op ++ ch ++ 0#8).extractLsb' 0 8 := BitVec.extractLsb'_append_eq_of_le (by omega)
    _ = 0 := BitVec.extractLsb'_append_eq_right

@[simp] theorem dataField_eventWord (op ch : BitVec 4) (data : BitVec 16) :
    dataField (eventWord op ch data) = data :=
  BitVec.extractLsb'_append_eq_right

/-- A word is its four fields put together (R66). -/
theorem fields_append (w : EventWord) :
    opField w ++ chField w ++ zField w ++ dataField w = w := by
  have hhigh : opField w ++ chField w = w.extractLsb' 24 8 :=
    BitVec.extractLsb'_append_extractLsb'_eq_extractLsb' rfl
  have hupper : w.extractLsb' 24 8 ++ zField w = w.extractLsb' 16 16 :=
    BitVec.extractLsb'_append_extractLsb'_eq_extractLsb' rfl
  rw [hhigh, hupper]
  exact BitVec.extractLsb'_append_extractLsb' (w := 16) (len := 16)

/-- Words are equal exactly when their fields are. -/
theorem eq_iff_fields (v w : EventWord) :
    v = w ↔ opField v = opField w ∧ chField v = chField w ∧ zField v = zField w ∧
      dataField v = dataField w := by
  refine ⟨fun h => by rw [h]; simp, fun ⟨hop, hch, hz, hdata⟩ => ?_⟩
  rw [← fields_append v, ← fields_append w, hop, hch, hz, hdata]

/-- A word whose Z field is 0 is put together from its other fields. -/
theorem eventWord_of_fields {w : EventWord} {op ch : BitVec 4} {data : BitVec 16}
    (hz : zField w = 0) (hop : (opField w).toNat = op.toNat) (hch : ch = chField w)
    (hdata : data = dataField w) : eventWord op ch data = w := by
  rw [eq_iff_fields]
  simp [hz, hch, hdata, BitVec.eq_of_toNat_eq hop]

@[simp] theorem chBits_toFin (ch : BitVec 4) : chBits ch.toFin = ch := rfl

@[simp] theorem toFin_chBits (c : Ch) : (chBits c).toFin = c := rfl

/-! ## The shapes of an operation's operands -/

theorem onChannel_eq_ok {w : EventWord} {f : Ch → Instr} {i : Instr} :
    onChannel w f = .ok i ↔ dataField w = 0 ∧ f (chField w).toFin = i := by
  unfold onChannel; split <;> simp_all

theorem bare_eq_ok {w : EventWord} {i j : Instr} :
    bare w i = .ok j ↔ chField w = 0 ∧ dataField w = 0 ∧ i = j := by
  unfold bare; split <;> [split; skip] <;> simp_all

theorem onByteOperand_eq_ok {w : EventWord} {f : Byte → Instr} {i : Instr} :
    onByteOperand w f = .ok i ↔
      (dataField w).extractLsb' 8 8 = 0 ∧ f ((dataField w).extractLsb' 0 8) = i := by
  unfold onByteOperand; split <;> simp_all

@[simp] theorem highByte_zeroExtended (b : Byte) :
    (0#8 ++ b : BitVec 16).extractLsb' 8 8 = 0 :=
  BitVec.extractLsb'_append_eq_left

@[simp] theorem lowByte_zeroExtended (b : Byte) :
    (0#8 ++ b : BitVec 16).extractLsb' 0 8 = b :=
  BitVec.extractLsb'_append_eq_right

/-- DATA whose high byte is 0 is its low byte. -/
theorem zeroExtend_lowByte {data : BitVec 16} (h : data.extractLsb' 8 8 = 0) :
    0#8 ++ data.extractLsb' 0 8 = data := by
  rw [show 0#8 = data.extractLsb' 8 8 from h.symm]
  exact BitVec.extractLsb'_append_extractLsb' (w := 8) (len := 8)

/-- DATA whose bits 15:1 are 0 is its bit 0. -/
theorem zeroExtend_lowBit {data : BitVec 16} (h : data.extractLsb' 1 15 = 0) :
    0#15 ++ BitVec.ofBool (data.getLsbD 0) = data := by
  have hbit : BitVec.ofBool (data.getLsbD 0) = data.extractLsb' 0 1 := by
    refine BitVec.eq_of_getLsbD_eq fun j hj => ?_
    obtain rfl : j = 0 := by omega
    simp
  rw [hbit, show 0#15 = data.extractLsb' 1 15 from h.symm]
  exact BitVec.extractLsb'_append_extractLsb' (w := 15) (len := 1)

/-! ## The round trips -/

/-- Settles O1: the fields of the encoded word are those put in. -/
theorem decodeOfEncodeIsTheInstruction : Obligations.DecodeOfEncodeIsTheInstruction := by
  intro i
  cases i with
  | fsTick c | txDone c | fsCopy c | fsTrig c | fsClr c => simp [decode, encode, onChannel]
  | rqTick | tlmStart | ackDec | clrOvf => simp [decode, encode, bare]
  | rxByte b | rd c r => simp [decode, encode, onByteOperand]
  | setCode c v => simp [decode, encode]
  | setTlm c v => cases v <;> simp [decode, encode]

/-- Settles O2: in each row of the decoder the fields that are no operand are fixed, so the word is
put together from its operands. -/
theorem decodedWordIsItsEncoding : Obligations.DecodedWordIsItsEncoding := by
  intro w i h
  unfold decode at h
  split at h
  case isFalse => simp at h
  case isTrue hz =>
  split at h
  case h_1 hop | h_2 hop | h_11 hop | h_12 hop | h_13 hop =>
    obtain ⟨hdata, rfl⟩ := onChannel_eq_ok.mp h
    exact eventWord_of_fields hz hop rfl hdata.symm
  case h_3 hop | h_7 hop | h_8 hop | h_9 hop =>
    obtain ⟨hch, hdata, rfl⟩ := bare_eq_ok.mp h
    exact eventWord_of_fields hz hop hch.symm hdata.symm
  case h_4 hop =>
    split at h
    case isFalse => simp at h
    case isTrue hch =>
      obtain ⟨hdata, rfl⟩ := onByteOperand_eq_ok.mp h
      exact eventWord_of_fields hz hop hch.symm (zeroExtend_lowByte hdata)
  case h_5 hop =>
    obtain rfl := Except.ok.inj h
    exact eventWord_of_fields hz hop rfl rfl
  case h_6 hop =>
    split at h
    case isFalse => simp at h
    case isTrue hdata =>
      obtain rfl := Except.ok.inj h
      exact eventWord_of_fields hz hop rfl (zeroExtend_lowBit hdata)
  case h_10 hop =>
    obtain ⟨hdata, rfl⟩ := onByteOperand_eq_ok.mp h
    exact eventWord_of_fields hz hop rfl (zeroExtend_lowByte hdata)
  case h_14 => simp at h

/-! ## Rows of the opcode table -/

/-- Where the mask is all ones, a word that matches reads as the match. -/
theorem extractLsb'_of_matches {n start len : Nat} {w mask value : BitVec n}
    (h : w &&& mask = value) (hmask : mask.extractLsb' start len = BitVec.allOnes len) :
    w.extractLsb' start len = value.extractLsb' start len := by
  rw [← h, BitVec.extractLsb'_and, hmask, BitVec.and_allOnes]

/-- Where the mask is all ones and the match 0, a word that matches is 0. -/
theorem extractLsb'_eq_zero_of_matches {n start len : Nat} {w mask value : BitVec n}
    (h : w &&& mask = value) (hmask : mask.extractLsb' start len = BitVec.allOnes len)
    (hvalue : value.extractLsb' start len = 0) : w.extractLsb' start len = 0 :=
  (extractLsb'_of_matches h hmask).trans hvalue

/-- Every row fixes OP and demands 0 in Z (R68). -/
theorem tableRow_opField_zField (i : Instr) :
    opField i.tableRow.2 = BitVec.allOnes 4 ∧ zField i.tableRow.2 = BitVec.allOnes 8 ∧
      zField i.tableRow.1 = 0 := by
  cases i <;> rw [Instr.tableRow] <;> decide

/-- An operation's row is in the table: no operand enters it. -/
theorem tableRow_mem (i : Instr) : i.tableRow ∈ opcodeTable := by
  cases i <;> simp [opcodeTable, Instr.tableRow]

/-- The rows of the table are those of the operations. -/
theorem exists_of_mem_opcodeTable {row : EventWord × EventWord} (h : row ∈ opcodeTable) :
    ∃ i : Instr, i.tableRow = row := by
  obtain ⟨i, -, hi⟩ := List.mem_map.mp h
  exact ⟨i, hi⟩

/-- The word of an operation matches its row (R68). -/
theorem encode_matches_row (i : Instr) : encode i &&& i.tableRow.2 = i.tableRow.1 := by
  cases i with
  | fsTick c => exact Laws.EncodedRow.fsTick c
  | txDone c => exact Laws.EncodedRow.txDone c
  | rqTick => exact Laws.EncodedRow.rqTick
  | rxByte b => exact Laws.EncodedRow.rxByte b
  | setCode c v => exact Laws.EncodedRow.setCode c v
  | setTlm c v => exact Laws.EncodedRow.setTlm c v
  | tlmStart => exact Laws.EncodedRow.tlmStart
  | ackDec => exact Laws.EncodedRow.ackDec
  | clrOvf => exact Laws.EncodedRow.clrOvf
  | rd c r => exact Laws.EncodedRow.rd c r
  | fsCopy c => exact Laws.EncodedRow.fsCopy c
  | fsTrig c => exact Laws.EncodedRow.fsTrig c
  | fsClr c => exact Laws.EncodedRow.fsClr c

/-- A word that matches a row decodes: it has the row's OP, Z is 0, and the bits that the mask leaves
free are an operand (R68). -/
theorem exists_decode_of_matches {w : EventWord} (i : Instr)
    (h : w &&& i.tableRow.2 = i.tableRow.1) : ∃ j, decode w = .ok j := by
  obtain ⟨hmaskOp, hmaskZ, hvalueZ⟩ := tableRow_opField_zField i
  have hz : zField w = 0 := extractLsb'_eq_zero_of_matches h hmaskZ hvalueZ
  have hop : opField w = opField (encode i) :=
    (extractLsb'_of_matches h hmaskOp).trans
      (extractLsb'_of_matches (encode_matches_row i) hmaskOp).symm
  have hdata : dataField w &&& dataField i.tableRow.2 = dataField i.tableRow.1 := by
    rw [← h]; exact BitVec.extractLsb'_and.symm
  cases i <;> rw [Instr.tableRow] at h hdata <;> rw [encode, opField_eventWord] at hop
  case fsTick | txDone | fsCopy | fsTrig | fsClr =>
    have hzero : dataField w = 0 := extractLsb'_eq_zero_of_matches h rfl rfl
    simp [decode, hz, hop, onChannel, hzero]
  case rqTick | tlmStart | ackDec | clrOvf =>
    have hch : chField w = 0 := extractLsb'_eq_zero_of_matches h rfl rfl
    have hzero : dataField w = 0 := extractLsb'_eq_zero_of_matches h rfl rfl
    simp [decode, hz, hop, bare, hch, hzero]
  case rxByte =>
    have hch : chField w = 0 := extractLsb'_eq_zero_of_matches h rfl rfl
    have hhigh : (dataField w).extractLsb' 8 8 = 0 := extractLsb'_eq_zero_of_matches hdata rfl rfl
    simp [decode, hz, hop, onByteOperand, hch, hhigh]
  case rd =>
    have hhigh : (dataField w).extractLsb' 8 8 = 0 := extractLsb'_eq_zero_of_matches hdata rfl rfl
    simp [decode, hz, hop, onByteOperand, hhigh]
  case setCode => simp [decode, hz, hop]
  case setTlm =>
    have hhigh : (dataField w).extractLsb' 1 15 = 0 := extractLsb'_eq_zero_of_matches hdata rfl rfl
    simp [decode, hz, hop, hhigh]

/-- Settles O3: a word that decodes is the word of its operation, which matches the operation's row. -/
theorem decodableExactlyByTableRow : Obligations.DecodableExactlyByTableRow := by
  have hmatches : ∀ w i, decode w = .ok i → w &&& i.tableRow.2 = i.tableRow.1 := by
    intro w i h
    rw [← decodedWordIsItsEncoding w i h]
    exact encode_matches_row i
  refine fun w => ⟨⟨fun ⟨i, h⟩ => ⟨i.tableRow, tableRow_mem i, hmatches w i h⟩, ?decodes⟩, hmatches w⟩
  case decodes =>
    rintro ⟨row, hrow, h⟩
    obtain ⟨i, rfl⟩ := exists_of_mem_opcodeTable hrow
    exact exists_decode_of_matches i h

/-! ## A presented word -/

/-- A presented word that decodes is run in the state without it (R46, R66). -/
theorem step_of_word {s : State} {w : EventWord} {rest : List Input} {i : Instr}
    (h : s.inputs = .word w :: rest) (hd : decode w = .ok i) :
    step s = exec i (s.withInputs rest) := by
  simp [step, State.nextAction, h, hd]

/-- A presented word that no operation has is illegal (R68). -/
theorem step_of_illegal_word {s : State} {w : EventWord} {rest : List Input}
    (h : s.inputs = .word w :: rest) (hno : ∀ i, decode w ≠ .ok i) :
    ∃ why, step s = .refused (.illegalWord why) := by
  cases hd : decode w with
  | ok i => exact absurd hd (hno i)
  | error why => exact ⟨why, by simp [step, State.nextAction, h, hd]⟩

/-- OP of an operation's word is its row number, from 1 to 13 (R67). -/
theorem opField_encode (i : Instr) :
    1 ≤ (opField (encode i)).toNat ∧ (opField (encode i)).toNat ≤ 13 := by
  cases i <;> simp [encode]

/-- Z of an operation's word is 0 (R66). -/
theorem zField_encode (i : Instr) : zField (encode i) = 0 := by
  cases i <;> simp [encode]

/-- The comparison of CH with `NCH` comes before every other test of an operation (R68). -/
theorem exec_of_not_wellFormed {i : Instr} {s : State} (h : i.wellFormed s.cfg.nch = false) :
    exec i s = .refused .channelOutOfRange := by
  cases i with
  | fsTick c | txDone c | setCode c v | setTlm c v | fsCopy c | fsTrig c | fsClr c | rd c r =>
    exact require_refuses _ _ _ (by simpa [Instr.wellFormed] using h)
  | rqTick | rxByte b | tlmStart | ackDec | clrOvf => simp [Instr.wellFormed] at h

/-- Settles O4: an operation's word has none of the forbidden fields and matches a row. -/
theorem illegalWordsAreRefused : Obligations.IllegalWordsAreRefused := by
  refine fun s w rest hin => ⟨fun hfield => step_of_illegal_word hin fun i hd => ?fields,
    fun hrow => step_of_illegal_word hin fun i hd => ?row, fun i hd hch => ?channel⟩
  case fields =>
    obtain rfl := decodedWordIsItsEncoding w i hd
    have hop := opField_encode i
    rcases hfield with h | h | h | h
    · simp [h] at hop
    · simp [h] at hop
    · simp [h] at hop
    · exact h (zField_encode i)
  case row =>
    obtain ⟨row, hmem, h⟩ := (decodableExactlyByTableRow w).1.mp ⟨i, hd⟩
    exact hrow row hmem h
  case channel =>
    rw [step_of_word hin hd]
    exact exec_of_not_wellFormed hch

/-- Settles O5: the decoder evaluated on the listed words. -/
theorem sampleEventWordsDecode : Obligations.SampleEventWordsDecode := by
  unfold Obligations.SampleEventWordsDecode
  decide

/-- A word taken from the table form is the word itself (log 23). -/
theorem tableWord_toNat (w : EventWord) : tableWord 32 w.toNat = w := by
  rw [tableWord, Nat.mod_eq_of_lt w.isLt]
  exact (BitVec.ofNat_toNat 32 w).trans (BitVec.setWidth_eq w)

/-- Settles O6: a presented word is run in the state without it, which for `State.withFetchWord` is
the state it was presented to. -/
theorem stepRunsTheDecodedWord : Obligations.StepRunsTheDecodedWord := by
  refine ⟨fun s w rest i hin hd => step_of_word hin hd, fun s i => ?fetched⟩
  case fetched =>
    rw [State.withFetchWord, tableWord_toNat]
    exact step_of_word (s.present_inputs _) (decodeOfEncodeIsTheInstruction i)

end Sys2Proof.Machine

/-! PROOFS. The packet codec as a whole: what of the code and the flag a frame carries
(40_packet_codec.md R80 to R82, R86, 30_encoding.md R62). -/

namespace Sys2Proof.Machine

/-! ## Bits of the Command and of the frame -/

/-- Bit 0 of the Command is the telemetry bit, the others are the code's, one place up (R80). -/
theorem getLsbD_commandFrom_zero (code : BitVec 16) (t : Bool) :
    (commandFrom code t).getLsbD 0 = t := by
  cases t <;> simp [commandFrom]

theorem getLsbD_commandFrom_succ (code : BitVec 16) (t : Bool) {j : Nat} (hj : j + 1 < 16) :
    (commandFrom code t).getLsbD (j + 1) = code.getLsbD j := by
  cases t <;> simp [commandFrom, hj, -BitVec.getLsbD_eq_getElem]

/-- A frame is determined by the low twelve bits of its Command (R82). -/
theorem frameFrom_congr {x y : BitVec 16} (h : ∀ j < 12, x.getLsbD j = y.getLsbD j) :
    frameFrom x = frameFrom y := by
  refine BitVec.eq_of_getLsbD_eq fun j hj => ?_
  by_cases hlow : j < 4
  · rw [getLsbD_frameFrom_low x hlow, getLsbD_frameFrom_low y hlow, getLsbD_checksum4,
      getLsbD_checksum4, h j (by omega), h (4 + j) (by omega), h (8 + j) (by omega)]
  · obtain ⟨k, rfl⟩ := Nat.exists_eq_add_of_le (Nat.le_of_not_lt hlow)
    rw [getLsbD_frameFrom_high x (by omega), getLsbD_frameFrom_high y (by omega), h k (by omega)]

/-- Bit 4 of a frame is the telemetry bit (R62). -/
theorem getLsbD_frame_four (code : BitVec 16) (t : Bool) :
    (frameFrom (commandFrom code t)).getLsbD 4 = t :=
  (getLsbD_frameFrom_high _ (j := 0) (by omega)).trans (getLsbD_commandFrom_zero code t)

/-- Bits 15:5 of a frame are the low eleven bits of the code (R62). -/
theorem extractLsb'_frame_code (code : BitVec 16) (t : Bool) :
    (frameFrom (commandFrom code t)).extractLsb' 5 11 = code.extractLsb' 0 11 := by
  refine BitVec.eq_of_getLsbD_eq fun j hj => ?_
  rw [BitVec.getLsbD_extractLsb', BitVec.getLsbD_extractLsb', show 5 + j = 4 + (j + 1) by omega,
    getLsbD_frameFrom_high _ (by omega), getLsbD_commandFrom_succ _ _ (by omega), Nat.zero_add]

/-- For a legal code those bits are the whole code. -/
theorem toNat_frame_code {code : BitVec 16} (t : Bool) (hcode : code.toNat ≤ 2047) :
    ((frameFrom (commandFrom code t)).extractLsb' 5 11).toNat = code.toNat := by
  rw [extractLsb'_frame_code, BitVec.extractLsb'_toNat, Nat.shiftRight_zero]
  exact Nat.mod_eq_of_lt (by omega)

/-! ## The statements -/

/-- Settles O10: from bit 4 on the frame is the Command, so the fold of the shifted frame is the fold
of the Command. -/
theorem checksumRoundTrip : Obligations.ChecksumRoundTrip := by
  refine fun code t => BitVec.eq_of_getLsbD_eq fun j hj => ?_
  rw [getLsbD_checksum4, BitVec.getLsbD_and, getLsbD_nibbleMask]
  by_cases hlow : j < 4
  · have hfold : ∀ k < 12, (frameFrom (commandFrom code t) >>> 4).getLsbD k =
        (commandFrom code t).getLsbD k := fun k hk => by
      rw [BitVec.getLsbD_ushiftRight, getLsbD_frameFrom_high _ hk]
    rw [hfold j (by omega), hfold (4 + j) (by omega), hfold (8 + j) (by omega),
      getLsbD_frameFrom_low _ hlow, getLsbD_checksum4]
    simp [hlow]
  · simp [hlow]

/-- Settles O11: the low twelve bits of the Command are the telemetry bit and code bits 10:0, which
the mask keeps. -/
theorem frameIgnoresHighCodeBits : Obligations.FrameIgnoresHighCodeBits := by
  refine fun code t => frameFrom_congr fun j hj => ?_
  cases j with
  | zero => rw [getLsbD_commandFrom_zero, getLsbD_commandFrom_zero]
  | succ k =>
    have hmask : (0x07FF#16).getLsbD k = true :=
      (Nat.testBit_two_pow_sub_one 11 k).trans (decide_eq_true (by omega))
    rw [getLsbD_commandFrom_succ _ _ (by omega), getLsbD_commandFrom_succ _ _ (by omega),
      BitVec.getLsbD_and, hmask, Bool.and_true]

/-- Settles O12: both parts are read off the frame, so equal frames have equal parts. -/
theorem frameDeterminesCodeAndTelemetry : Obligations.FrameDeterminesCodeAndTelemetry := by
  refine ⟨fun code t hcode => ⟨toNat_frame_code t hcode, getLsbD_frame_four code t⟩,
    fun code code' t t' hcode hcode' hframe => ⟨BitVec.eq_of_toNat_eq ?code, ?telemetry⟩⟩
  case code => rw [← toNat_frame_code t hcode, hframe, toNat_frame_code t' hcode']
  case telemetry => rw [← getLsbD_frame_four code t, hframe, getLsbD_frame_four]

end Sys2Proof.Machine

/-! PROOFS. The telemetry decoder: `crc8_update` is linear over exclusive or and keeps 0 apart from the
rest; the fields of a record as numbers (43_telemetry_decoder.md R130 to R132). -/

namespace Sys2Proof.Machine

/-! ## The shift steps -/

/-- A shift step keeps exclusive or: the polynomial comes in for exactly one of the two, or for both and
cancels (R130). -/
theorem crcStep_xor (x y : BitVec 8) : crcStep (x ^^^ y) = crcStep x ^^^ crcStep y := by
  unfold crcStep
  rw [BitVec.getLsbD_xor, BitVec.shiftLeft_xor_distrib]
  cases x.getLsbD 7 <;> cases y.getLsbD 7
  case false.false => rfl
  case false.true => exact BitVec.xor_assoc _ _ _
  case true.false =>
    show (x <<< 1 ^^^ y <<< 1) ^^^ 0x07#8 = (x <<< 1 ^^^ 0x07#8) ^^^ y <<< 1
    ac_rfl
  case true.true =>
    show x <<< 1 ^^^ y <<< 1 = (x <<< 1 ^^^ 0x07#8) ^^^ (y <<< 1 ^^^ 0x07#8)
    rw [BitVec.xor_comm (y <<< 1), BitVec.xor_assoc, ← BitVec.xor_assoc 0x07#8, BitVec.xor_self,
      BitVec.zero_xor]

theorem crcSteps_xor (n : Nat) (x y : BitVec 8) :
    crcSteps n (x ^^^ y) = crcSteps n x ^^^ crcSteps n y := by
  induction n generalizing x y with
  | zero => rfl
  | succ n ih => rw [crcSteps, crcStep_xor, ih]; rfl

/-- A shift step leads to 0 from 0 alone: the polynomial sets bit 0, which the shift leaves 0, and
without it bit 7, the one bit shifted out, was 0 (R130). -/
theorem crcStep_eq_zero (x : BitVec 8) : crcStep x = 0 ↔ x = 0 := by
  refine ⟨fun h => ?_, fun h => by rw [h]; rfl⟩
  unfold crcStep at h
  split at h
  case isTrue htop =>
    have hbit := congrArg (BitVec.getLsbD · 0) h
    simp at hbit
  case isFalse htop =>
    refine BitVec.eq_of_getLsbD_eq fun j hj => ?_
    rcases Nat.lt_succ_iff_lt_or_eq.mp hj with hlow | rfl
    · have hbit := congrArg (BitVec.getLsbD · (j + 1)) h
      simpa [show j + 1 < 8 by omega, -BitVec.getLsbD_eq_getElem] using hbit
    · simpa using htop

theorem crcSteps_eq_zero (n : Nat) (x : BitVec 8) : crcSteps n x = 0 ↔ x = 0 := by
  induction n generalizing x with
  | zero => rfl
  | succ n ih => rw [crcSteps, ih, crcStep_eq_zero]

/-- The two arguments enter through their exclusive or alone (R130). -/
theorem crc8Update_eq_zero (b seed : BitVec 8) : crc8Update b seed = 0 ↔ b = seed := by
  rw [crc8Update, crcSteps_eq_zero]
  exact BitVec.xor_eq_zero_iff

/-- Settles O14: eight shift steps of the exclusive or. -/
theorem crcUpdateZeroExactlyWhenEqual : Obligations.CrcUpdateZeroExactlyWhenEqual := by
  refine fun b seed => ⟨?alone, crc8Update_eq_zero b seed⟩
  case alone => simp [crc8Update]

/-- The exclusive or of the lowest `n` bits of a byte, one by one. -/
theorem getLsbD_foldl_bits (x : BitVec 8) {n : Nat} (hn : n ≤ 8) (j : Nat) :
    (((List.range n).map fun k => if x.getLsbD k then BitVec.twoPow 8 k else 0).foldl
      (· ^^^ ·) 0).getLsbD j = (decide (j < n) && x.getLsbD j) := by
  induction n with
  | zero => simp
  | succ n ih =>
    rw [List.range_succ, List.map_append, List.foldl_append, List.map_singleton, List.foldl_cons,
      List.foldl_nil, BitVec.getLsbD_xor, ih (by omega), apply_ite (BitVec.getLsbD · j),
      BitVec.getLsbD_twoPow]
    by_cases hj : n = j
    · subst hj
      simp [show n < 8 by omega, -BitVec.getLsbD_eq_getElem]
    · have hlt : j < n + 1 ↔ j < n := by omega
      simp [hj, hlt, -BitVec.getLsbD_eq_getElem]

/-- A byte is the exclusive or of its bits. -/
theorem foldl_bits (x : BitVec 8) :
    ((List.range 8).map fun k => if x.getLsbD k then BitVec.twoPow 8 k else 0).foldl (· ^^^ ·) 0 = x :=
  BitVec.eq_of_getLsbD_eq fun j hj => by rw [getLsbD_foldl_bits x le_rfl, decide_eq_true hj, Bool.true_and]

/-- The shift steps of an exclusive or of several bytes. -/
theorem crcSteps_foldl (n : Nat) (xs : List Byte) (x : Byte) :
    crcSteps n (xs.foldl (· ^^^ ·) x) = (xs.map (crcSteps n)).foldl (· ^^^ ·) (crcSteps n x) := by
  induction xs generalizing x with
  | nil => rfl
  | cons y ys ih => rw [List.foldl_cons, ih, crcSteps_xor, List.map_cons, List.foldl_cons]

/-- Settles O56: the update of a byte is the exclusive or of the updates of its bits, of which there are
eight to evaluate. -/
theorem crcUpdateIsFixedByItsBits : Obligations.CrcUpdateIsFixedByItsBits := by
  intro b seed
  have hzero : crcSteps 8 0 = 0 := (crcSteps_eq_zero 8 0).mpr rfl
  rw [crc8Update, ← foldl_bits (b ^^^ seed), crcSteps_foldl, hzero, foldl_bits]
  congr 1
  simp only [List.range, List.range.loop, List.map, apply_ite (crcSteps 8), hzero]
  rfl

theorem crcFold_append (seed : BitVec 8) (xs ys : List Byte) :
    crcFold seed (xs ++ ys) = crcFold (crcFold seed xs) ys := by
  induction xs generalizing seed with
  | nil => rfl
  | cons x xs ih => exact ih _

/-- Settles O15: the last update is of byte 9 with the CRC of the first nine as its seed. -/
theorem crcZeroExactlyWhenTrailerMatches : Obligations.CrcZeroExactlyWhenTrailerMatches := by
  intro buffer
  have hsplit : buffer.toList = buffer.toList.take 9 ++ [buffer[9]] := by
    rw [← List.take_append_drop 9 buffer.toList, List.drop_eq_getElem_cons (by simp)]
    simp
  have hcrc : crc8 buffer = crc8Update buffer[9] (crcFold 0 (buffer.toList.take 9)) := by
    rw [crc8, hsplit, crcFold_append, ← hsplit]; rfl
  rw [hcrc, crc8Update_eq_zero]

/-! ## The fields of a record -/

/-- A big-endian field as a number (R70 item 8). -/
theorem toNat_bigEndian (hi lo : BitVec 8) : (bigEndian hi lo).toNat = 256 * hi.toNat + lo.toNat := by
  have happend : bigEndian hi lo = (hi ++ lo : BitVec 16) :=
    BitVec.setWidth_append_eq_shiftLeft_setWidth_or.symm.trans (BitVec.setWidth_eq (hi ++ lo))
  rw [happend, BitVec.toNat_append, ← Nat.shiftLeft_add_eq_or_of_lt lo.isLt, Nat.shiftLeft_eq]
  omega

/-- Settles O16: each field is read from its bytes; the product of ERPM fits 32 bits. -/
theorem decodedRecordFields : Obligations.DecodedRecordFields := by
  refine fun buffer => ⟨?temp, toNat_bigEndian _ _, toNat_bigEndian _ _, toNat_bigEndian _ _, ?erpm, rfl⟩
  case temp =>
    show buffer[0].toInt = _
    rw [BitVec.toInt_eq_toNat_cond]
    split_ifs <;> omega
  case erpm =>
    show ((bigEndian buffer[7] buffer[8]).setWidth 32 * 100#32).toNat = _
    rw [BitVec.toNat_mul, BitVec.toNat_setWidth, toNat_bigEndian]
    have hhi := buffer[7].isLt
    have hlo := buffer[8].isLt
    rw [BitVec.toNat_ofNat]
    omega

end Sys2Proof.Machine

/-! PROOFS. Which operation writes which register of a channel, buffer and record, and the pending train
(10_state.md R11 to R18, 41_frame_scheduler.md R96, R97, 60_exceptions.md R163). -/

namespace Sys2Proof.Machine

/-! ## The writers of a channel's registers -/

section Writers
variable {i : Instr} {s t : State} {c : Ch}

/-- `CODE` is written by SET_CODE alone, with a legal code (R11, R140). -/
theorem exec_code (he : exec i s = .next t) : (t.chan c).code = (s.chan c).code ∨
    (i = .setCode c (t.chan c).code ∧ (t.chan c).code.toNat ≤ 2047) := by
  cases exec_chan he c
  case code v hv h => exact .inr (by rw [h]; exact ⟨rfl, hv⟩)
  all_goals exact .inl (by rw [‹t.chan c = _›])

/-- `PRI` is written by FS_TICK and FS_COPY, with no transfer in flight (R13, R97). -/
theorem exec_pri (he : exec i s = .next t) : (t.chan c).pri = (s.chan c).pri ∨
    ((s.chan c).txBusy = false ∧ (i = .fsTick c ∨ i = .fsCopy c)) := by
  cases exec_chan he c
  case tickDirect hb _ _ => exact .inr ⟨hb, .inl rfl⟩
  case copy hb _ _ => exact .inr ⟨hb, .inr rfl⟩
  all_goals exact .inl (by rw [‹t.chan c = _›])

/-- `SEC` is written by FS_TICK, with a transfer in flight (R14, R91). -/
theorem exec_sec (he : exec i s = .next t) : (t.chan c).sec = (s.chan c).sec ∨
    ((s.chan c).txBusy = true ∧ i = .fsTick c) := by
  cases exec_chan he c
  case tickBuffered hb _ _ => exact .inr ⟨hb, rfl⟩
  all_goals exact .inl (by rw [‹t.chan c = _›])

/-- The write counters and the sequencer: each operation that brings a sequencer into TRIG counts one
write, and no other does (R15, R91, R92). -/
theorem exec_counters (he : exec i s = .next t) :
    (i = .fsTick c ∧ (s.chan c).txBusy = false ∧ (s.chan c).fsPc = .idle ∧ (t.chan c).fsPc = .trig ∧
      (t.chan c).cntDirect = (s.chan c).cntDirect + 1 ∧
      (t.chan c).cntBuffered = (s.chan c).cntBuffered) ∨
    (i = .fsCopy c ∧ (s.chan c).txBusy = false ∧ (s.chan c).fsPc = .wait ∧ (t.chan c).fsPc = .trig ∧
      (t.chan c).cntBuffered = (s.chan c).cntBuffered + 1 ∧
      (t.chan c).cntDirect = (s.chan c).cntDirect) ∨
    (((t.chan c).fsPc = .trig → (s.chan c).fsPc = .trig) ∧
      (t.chan c).cntDirect = (s.chan c).cntDirect ∧
      (t.chan c).cntBuffered = (s.chan c).cntBuffered) := by
  cases exec_chan he c
  case tickDirect hb hi h => exact .inl ⟨rfl, hb, hi, by simp [h]⟩
  case copy hb hi h => exact .inr (.inl ⟨rfl, hb, hi, by simp [h]⟩)
  all_goals exact .inr (.inr (by simp [‹t.chan c = _›]))

/-- `FS_PC` moves only as the four scheduler operations say (R16). -/
theorem exec_fsPc (he : exec i s = .next t) : (t.chan c).fsPc = (s.chan c).fsPc ∨
    (i = .fsTick c ∧ (s.chan c).fsPc = .idle ∧
      (t.chan c).fsPc = if (s.chan c).txBusy then .wait else .trig) ∨
    (i = .fsCopy c ∧ (s.chan c).fsPc = .wait ∧ (t.chan c).fsPc = .trig) ∨
    (i = .fsTrig c ∧ (s.chan c).fsPc = .trig ∧ (t.chan c).fsPc = .clr) ∨
    (i = .fsClr c ∧ (s.chan c).fsPc = .clr ∧ (t.chan c).fsPc = .idle) := by
  cases exec_chan he c
  case tickBuffered hb hi h => exact .inr (.inl ⟨rfl, hi, by simp [h, hb]⟩)
  case tickDirect hb hi h => exact .inr (.inl ⟨rfl, hi, by simp [h, hb]⟩)
  case copy hi h => exact .inr (.inr (.inl ⟨rfl, hi, by rw [h]⟩))
  case trig hi h => exact .inr (.inr (.inr (.inl ⟨rfl, hi, by rw [h]⟩)))
  case clr hi h => exact .inr (.inr (.inr (.inr ⟨rfl, hi, by rw [h]⟩)))
  all_goals exact .inl (by rw [‹t.chan c = _›])

/-- `TX_BUSY` rises by FS_TRIG and falls by TX_DONE (R18). -/
theorem exec_txBusy (he : exec i s = .next t) : (t.chan c).txBusy = (s.chan c).txBusy ∨
    (i = .fsTrig c ∧ (s.chan c).fsPc = .trig ∧ (t.chan c).txBusy = true) ∨
    (i = .txDone c ∧ (t.chan c).txBusy = false) := by
  cases exec_chan he c
  case trig hi h => exact .inr (.inl ⟨rfl, hi, by rw [h]⟩)
  case done hb h => exact .inr (.inr ⟨rfl, by rw [h]⟩)
  all_goals exact .inl (by rw [‹t.chan c = _›])

/-- A flag rises only as the current channel is asked, or as the host sets it (R12). -/
theorem exec_tlm_rises (he : exec i s = .next t) (h0 : (s.chan c).tlm = false)
    (h1 : (t.chan c).tlm = true) :
    (i = .rqTick ∧ c = t.rrIdx ∧ s.tlmActive = true) ∨
      (i = .setTlm c true ∧ s.tlmActive = false) := by
  cases exec_chan he c
  case ask ha hc h => exact .inl ⟨rfl, hc, ha⟩
  case tlm v ha h =>
    obtain rfl : v = true := by rw [← h1, h]
    exact .inr ⟨rfl, ha⟩
  all_goals simp [‹t.chan c = _›, h0] at h1

/-- A flag falls only as it is spent, by the coordinator, or as the host clears it (R12). -/
theorem exec_tlm_falls (he : exec i s = .next t) (h1 : (s.chan c).tlm = true)
    (h0 : (t.chan c).tlm = false) :
    i = .fsClr c ∨ (i = .rqTick ∧ s.tlmActive = true) ∨ i = .tlmStart ∨
      (i = .setTlm c false ∧ s.tlmActive = false) := by
  cases exec_chan he c
  case clr => exact .inl rfl
  case clear hi => exact hi.elim (fun h => .inr (.inl h)) (fun h => .inr (.inr (.inl h)))
  case tlm v ha h =>
    obtain rfl : v = false := by rw [← h0, h]
    exact .inr (.inr (.inr ⟨rfl, ha⟩))
  all_goals simp [‹t.chan c = _›, h1] at h0

/-- A record is written by the tenth byte of a response of its channel, with the decode of the ten bytes
(R17, R112, R117). -/
theorem exec_record (he : exec i s = .next t) : (t.chan c).record = (s.chan c).record ∨
    ((∃ b, i = .rxByte b) ∧ c = s.rrIdx ∧ s.rxWr.val = 9 ∧ t.rxWr.val = 10 ∧ t.lastDec = some c ∧
      (t.chan c).record = decodeTelemetry t.rxBuf) := by
  cases exec_chan he c
  case decoded b hr h9 h10 hl h => exact .inr ⟨⟨b, rfl⟩, hr, h9, h10, hl, by rw [h]⟩
  all_goals exact .inl (by rw [‹t.chan c = _›])

end Writers

/-! ## The buffers and the counters -/

theorem Channel.priSlot_congr {x y : Channel} (h : x.pri = y.pri) (j : Nat) :
    x.priSlot j = y.priSlot j := by
  simp only [Channel.priSlot, h]

theorem Channel.secSlot_congr {x y : Channel} (h : x.sec = y.sec) (j : Nat) :
    x.secSlot j = y.secSlot j := by
  simp only [Channel.secSlot, h]

/-- Settles O22: both writers of `PRI` need the engine idle. -/
theorem primaryUntouchedWhileInFlight : Obligations.PrimaryUntouchedWhileInFlight := by
  intro s t c hnoReset hstep hbusy j
  rcases step_runs hnoReset hstep with rfl | ⟨i, s', hsame, he⟩
  · rfl
  · have hchan : s'.chan c = s.chan c := hsame.fields.2.1 c
    rcases exec_pri he (c := c) with hkept | ⟨hidle, -⟩
    · rw [← hchan]; exact Channel.priSlot_congr hkept j
    · simp [hchan, hbusy] at hidle

/-- Settles O26: exactly FS_TICK on the direct path and FS_COPY enter TRIG, each with its own counter. -/
theorem oneWriteCountedPerTrain : Obligations.OneWriteCountedPerTrain := by
  intro i s t c he
  rcases exec_counters he (c := c) with ⟨-, -, hpc, hpc', hd, hb⟩ | ⟨-, -, hpc, hpc', hb, hd⟩ |
    ⟨hnone, hd, hb⟩
  · refine ⟨fun _ _ => by rw [hd, hb]; ac_rfl, fun hno => absurd ⟨by simp [hpc], hpc'⟩ hno⟩
  · refine ⟨fun _ _ => by rw [hd, hb]; ac_rfl, fun hno => absurd ⟨by simp [hpc], hpc'⟩ hno⟩
  · exact ⟨fun hpc hpc' => absurd (hnone hpc') hpc, fun _ => ⟨hd, hb⟩⟩

/-- Settles O51: the hardwired slots read 0 whatever the buffer holds, the others as it. -/
theorem buffersChangeOnlyByTheirWriters : Obligations.BuffersChangeOnlyByTheirWriters := by
  refine fun i s t he => ⟨fun c j hne => ⟨?priIndex, ?priWriter⟩, fun c j hne => ⟨?secIndex, ?secWriter⟩,
    (exec_block he).buf⟩
  case priIndex =>
    by_contra hj
    exact hne (by rw [Channel.priSlot_of_ge _ (by omega), Channel.priSlot_of_ge _ (by omega)])
  case priWriter => exact (exec_pri he).resolve_left fun h => hne (Channel.priSlot_congr h j)
  case secIndex =>
    by_contra hj
    exact hne (by rw [Channel.secSlot_of_ge _ (by omega), Channel.secSlot_of_ge _ (by omega)])
  case secWriter => exact (exec_sec he).resolve_left fun h => hne (Channel.secSlot_congr h j)

/-! ## Every register -/

/-- Settles O52: each register's writers, read from what an operation can do to a channel, to the block
and to `OUT`. -/
theorem registersChangeOnlyByTheirWriters : Obligations.RegistersChangeOnlyByTheirWriters := by
  intro i s t he
  have hblock := exec_block he
  refine ⟨fun c hne => (exec_code he).resolve_left hne, fun c => exec_tlm_rises he,
    fun c => exec_tlm_falls he, fun c hne => ?cntDirect, fun c hne => ?cntBuffered,
    fun c hne => (exec_fsPc he).resolve_left hne, fun c h0 h1 => ?busyRises, fun c h1 h0 => ?busyFalls,
    fun hne => ?rrIdx, fun hne => hblock.wr.resolve_left hne, fun hne => hblock.marker.resolve_left hne,
    fun h0 h1 => ?activeRises, fun h1 h0 => ?activeFalls, fun h0 h1 => ?abortRises,
    fun h1 h0 => ?abortFalls, fun h0 h1 => ?ovfRises, fun h1 h0 => ?ovfFalls, hblock.ivl, hblock.nch,
    fun hne => ?out, fun hne => hblock.answers.resolve_left hne⟩
  case cntDirect =>
    rcases exec_counters he (c := c) with ⟨hi, hb, -, -, hd, -⟩ | ⟨-, -, -, -, -, hd⟩ | ⟨-, hd, -⟩
    · exact ⟨hi, hb, hd⟩
    · exact absurd hd hne
    · exact absurd hd hne
  case cntBuffered =>
    rcases exec_counters he (c := c) with ⟨-, -, -, -, -, hb⟩ | ⟨hi, -, -, -, hb, -⟩ | ⟨-, -, hb⟩
    · exact absurd hb hne
    · exact ⟨hi, hb⟩
    · exact absurd hb hne
  case busyRises =>
    rcases exec_txBusy he (c := c) with h | ⟨hi, -⟩ | ⟨-, h⟩
    · simp [h, h0] at h1
    · exact hi
    · simp [h] at h1
  case busyFalls =>
    rcases exec_txBusy he (c := c) with h | ⟨-, -, h⟩ | ⟨hi, -⟩
    · simp [h, h1] at h0
    · simp [h] at h0
    · exact hi
  case rrIdx =>
    obtain ⟨hi, hnext, hact, -⟩ := hblock.rr.resolve_left hne
    exact ⟨hi, hact, hnext⟩
  case activeRises =>
    rcases hblock.act with h | ⟨-, -, h, -⟩ | ⟨hi, -⟩
    · simp [h, h0] at h1
    · simp [h] at h1
    · exact hi
  case activeFalls =>
    rcases hblock.act with h | ⟨hi, -, -, habort⟩ | ⟨-, -, h, -⟩
    · simp [h, h1] at h0
    · exact ⟨hi, habort⟩
    · simp [h] at h0
  case abortRises =>
    rcases hblock.abort with h | ⟨hi, -⟩ | ⟨-, h⟩
    · simp [h, h0] at h1
    · exact hi
    · simp [h] at h1
  case abortFalls =>
    rcases hblock.abort with h | ⟨-, -, h⟩ | ⟨hi, -⟩
    · simp [h, h1] at h0
    · simp [h] at h0
    · exact hi
  case ovfRises =>
    rcases hblock.ovf with h | ⟨-, h⟩ | ⟨b, hi, hfull, -⟩
    · simp [h, h0] at h1
    · simp [h] at h1
    · exact ⟨b, hi, hfull⟩
  case ovfFalls =>
    rcases hblock.ovf with h | ⟨hi, -⟩ | ⟨b, -, -, h⟩
    · simp [h, h1] at h0
    · exact hi
    · simp [h] at h0
  case out =>
    obtain ⟨c, hi, hout, -⟩ := (exec_out he).resolve_left hne
    exact ⟨c, _, hi, hout⟩

/-! ## Records -/

/-- `ERPM` of a decoded record is a hundred times a 16-bit number (R17, R132). -/
theorem toNat_decodeTelemetry_erpm (buffer : Vector Byte 10) :
    (decodeTelemetry buffer).erpm.toNat % 100 = 0 ∧
      (decodeTelemetry buffer).erpm.toNat ≤ 6553500 := by
  obtain ⟨-, -, -, -, herpm, -⟩ := decodedRecordFields buffer
  have hhi := buffer[7].isLt
  have hlo := buffer[8].isLt
  omega

/-- Settles O53: the one writer of a record, and the bounds of a decoded one. -/
theorem recordsComeOnlyFromWholeResponses : Obligations.RecordsComeOnlyFromWholeResponses := by
  intro i s t c he hne
  obtain ⟨hbyte, hcur, h9, h10, hmark, hrec⟩ := (exec_record he).resolve_left hne
  refine ⟨hbyte, hcur, Fin.ext h9, Fin.ext h10, hrec, hmark, ?_⟩
  rw [hrec]
  exact toNat_decodeTelemetry_erpm t.rxBuf

/-! ## The pending train -/

/-- A pending train stays pending through every operation but the FS_TRIG that sends it: SEC is not
written while it waits, FS_COPY moves it as it is, and PRI is not written in TRIG (R96, R192). -/
theorem State.Pending.of_exec {i : Instr} {s t : State} {c : Ch} {train : Train}
    (hp : s.Pending c train) (he : exec i s = .next t) (hi : i ≠ .fsTrig c) : t.Pending c train := by
  unfold State.Pending at hp ⊢
  cases exec_chan he c
  case trig => exact absurd rfl hi
  case copy hwait h =>
    rcases hp with ⟨-, hsec⟩ | ⟨htrig, -⟩
    · exact .inr (by rw [h]; exact ⟨rfl, hsec⟩)
    · simp [hwait] at htrig
  case tickBuffered hpc _ | tickDirect hpc _ | clr hpc _ => simp [hpc] at hp
  all_goals rw [‹t.chan c = _›]; exact hp

/-- FS_TRIG sends the pending train, whole (R93, R96). -/
theorem State.Pending.sent {s t : State} {c : Ch} {train : Train} (hp : s.Pending c train)
    (he : exec (.fsTrig c) s = .next t) :
    t.out = s.out ++ [(c, paddedTrain train s.cfg.frameSlots)] ∧ (t.chan c).fsPc = .clr ∧
      (t.chan c).txBusy = true := by
  obtain ⟨-, -, htrig, rfl⟩ := (execFsTrig_eq_next c s t).mp he
  obtain ⟨-, hpri⟩ := hp.resolve_left fun ⟨hwait, _⟩ => by simp [htrig] at hwait
  have hchan := s.chan_setChan_self c { s.chan c with txBusy := true, fsPc := .clr }
  refine ⟨?out, congrArg Channel.fsPc hchan, congrArg Channel.txBusy hchan⟩
  case out => rw [← hpri, ← Channel.transfer_eq_paddedTrain]

/-- Nothing is sent on a channel but by its own FS_TRIG (R93). -/
theorem exec_out_of_channel {i : Instr} {s t : State} {c : Ch} (he : exec i s = .next t)
    (hi : i ≠ .fsTrig c) :
    t.out.filter (fun e => e.1 = c) = s.out.filter (fun e => e.1 = c) := by
  rcases exec_out he with hout | ⟨k, rfl, hout, -⟩
  · rw [hout]
  · have hk : k ≠ c := fun h => hi (h ▸ rfl)
    simp [hout, List.filter_append, hk]

/-- Settles O24: the step is nothing, the channel's FS_TRIG, or an operation that leaves the train
pending. -/
theorem pendingTrainIsSentWhole : Obligations.PendingTrainIsSentWhole := by
  intro s t c train hnoReset hp hstep
  rcases step_runs hnoReset hstep with rfl | ⟨i, s', hsame, he⟩
  · exact .inl ⟨hp, rfl⟩
  · obtain ⟨hcfg, hchan, -, -, -, -, -, -, -, -, -, hout, -⟩ := hsame.fields
    have hp' : s'.Pending c train := by rwa [State.Pending, hchan c]
    rw [← hcfg, ← hout]
    by_cases hi : i = .fsTrig c
    · subst hi; exact .inr (hp'.sent he)
    · exact .inl ⟨hp'.of_exec he hi, exec_out_of_channel he hi⟩

/-- Settles O23: the composed train goes to `SEC[c]` or to `PRI[c]`. -/
theorem tickMakesItsTrainPending : Obligations.TickMakesItsTrainPending := by
  refine fun s c hc hrun hidle =>
    ⟨s.tick c, (execFsTick_eq_next c s _).mpr ⟨hc, hrun, hidle, rfl⟩, ?_⟩
  cases hbusy : (s.chan c).txBusy with
  | true => exact .inl (by rw [State.tick_of_busy hbusy, State.chan_setChan_self]; exact ⟨rfl, rfl⟩)
  | false =>
    exact .inr (by rw [State.tick_of_not_busy hbusy, State.chan_setChan_self]; exact ⟨rfl, rfl⟩)

end Sys2Proof.Machine

/-! PROOFS. The telemetry coordinator: RQ_TICK, RX_BYTE, and what happens between two valid rounds
(42_telemetry_coordinator.md R111, R112, 70_reset_and_hazards.md R185, R194). -/

namespace Sys2Proof.Machine

/-! ## RQ_TICK -/

/-- No flag of an existing channel is 1 (R111). -/
theorem State.stale_eq_false (s : State) :
    s.stale = false ↔ ∀ c : Ch, c.val < s.cfg.nch → (s.chan c).tlm = false := by
  rw [← Bool.not_eq_true, State.stale_eq_true]
  simp

theorem State.short_eq_false (s : State) : s.short = false ↔ s.rxWr = 10 := by
  rw [← Bool.not_eq_true, State.short_eq_true, not_not]

/-- RQ_TICK of an active coordinator with no flag set and ten bytes (R111). -/
theorem exec_rqTick_of_valid {s : State} (hrun : s.halted = false) (hact : s.tlmActive = true)
    (hflags : ∀ c : Ch, c.val < s.cfg.nch → (s.chan c).tlm = false) (hfull : s.rxWr = 10) :
    exec .rqTick s = .next s.advanceRound := by
  refine (execRqTick_eq_next s _).mpr ⟨hrun, ?_⟩
  rw [if_pos hact, State.requestTick, (State.stale_eq_false s).mpr hflags,
    (State.short_eq_false s).mpr hfull]
  rfl

/-- RQ_TICK of an active coordinator with a flag set or fewer than ten bytes raises RoundInvalid, with
its causes (R154). -/
theorem exec_rqTick_of_invalid {s : State} (hrun : s.halted = false) (hact : s.tlmActive = true)
    (hbad : (∃ c : Ch, c.val < s.cfg.nch ∧ (s.chan c).tlm = true) ∨ s.rxWr ≠ 10) :
    ∃ stale short, exec .rqTick s = .next (s.raise (.roundInvalid stale short)) := by
  refine ⟨s.stale, s.short, (execRqTick_eq_next s _).mpr ⟨hrun, ?_⟩⟩
  rw [← State.stale_eq_true, ← State.short_eq_true, ← Bool.or_eq_true] at hbad
  rw [if_pos hact, State.requestTick, if_pos hbad]

/-- Settles O27: on a valid round the state is `State.advanceRound`, whose new flag is that of the new
cursor and whose old one was 0. -/
theorem rqTickStartsTheNextRound : Obligations.RqTickStartsTheNextRound := by
  refine fun s => ⟨fun hhalt => exec_refused_of_halted hhalt nofun,
    fun hrun hidle => (execRqTick_eq_next s s).mpr ⟨hrun, by simp [hidle]⟩,
    fun hrun hact hcursor hflags hfull => ?valid⟩
  case valid =>
    obtain ⟨hnext, hbelow⟩ := s.nextIndex_val (by omega)
    refine ⟨_, exec_rqTick_of_valid hrun hact hflags hfull, rfl, hnext, fun c => ?onlyFlag,
      fun c hc => ?flag, fun c hc => ?beyond⟩
    case onlyFlag => rw [State.chan_advanceRound]
    case flag =>
      rw [State.chan_advanceRound, State.advanceRound_rrIdx]
      simp [hflags c hc]
    case beyond =>
      have hnotNext : c ≠ s.nextIndex := fun h => by rw [h] at hc; omega
      have hnotOld : c ≠ s.rrIdx := fun h => by rw [h] at hc; omega
      rw [State.chan_advanceRound, if_neg hnotNext, if_neg hnotOld]

/-- Settles O28: the state is that of `raise RoundInvalid`, read channel by channel. -/
theorem rqTickAbortsAnInvalidRound : Obligations.RqTickAbortsAnInvalidRound := by
  intro s hrun hact hbad
  obtain ⟨stale, short, he⟩ := exec_rqTick_of_invalid hrun hact hbad
  refine ⟨_, he, ?block, fun c hc => ?below, fun c hc => ?beyond⟩
  case block => simp only [State.raise, State.clearFlags]
  case below => rw [State.raise_roundInvalid_chan, State.chan_clearFlags, if_pos hc]
  case beyond => rw [State.raise_roundInvalid_chan, State.chan_clearFlags, if_neg (Nat.not_lt.mpr hc)]

/-! ## RX_BYTE -/

/-- Settles O29: below the capacity the byte is appended, and the tenth is decoded. -/
theorem rxByteAppendsAndDecodes : Obligations.RxByteAppendsAndDecodes := by
  refine fun s b => ⟨fun hhalt => exec_refused_of_halted hhalt nofun,
    fun hrun hoff => (execRxByte_eq_next b s s).mpr ⟨hrun, by simp [hoff]⟩,
    fun hrun hen hroom => ⟨s.receive b, (execRxByte_eq_next b s _).mpr ⟨hrun, by simp [hen]⟩, ?_⟩⟩
  have hbyte : ∀ (h : s.rxWr.val < rxCap) (k : Fin 10),
      (s.appendByte b h).rxBuf[k] = if k.val = s.rxWr.val then b else s.rxBuf[k] := by
    intro h k
    simp only [State.appendByte_rxBuf, Fin.getElem_fin, Vector.getElem_set, eq_comm]
  rcases s.receive_cases b with ⟨hfull, -⟩ | ⟨h, h9, hrec⟩ | ⟨h, h9, hrec⟩
  · simp [hfull] at hroom
  · rw [hrec]
    exact ⟨rfl, hbyte h, fun _ => rfl, fun h9' => absurd h9' h9⟩
  · rw [hrec]
    exact ⟨rfl, hbyte h, fun hlt => by omega, fun _ => ⟨rfl, State.chan_setChan_self _ _ _,
      fun k hk => State.chan_setChan_of_ne _ _ hk⟩⟩

/-! ## The first round and the lost request -/

/-- A block reset with a configuration that has no error runs (R26, R181). -/
theorem resetWith_running {cfg : Config} (u : PowerUp) (hivl : 16000 ≤ cfg.tFsUs * cfg.speedKhz)
    (hnch : 1 ≤ cfg.nch) : (State.resetWith cfg u).halted = false := by
  rw [← Bool.not_eq_true, State.halted_eq_true]
  rintro (h | h)
  · exact absurd ((cfgIntervalError_eq_true cfg).mp h) (by omega)
  · exact absurd ((cfgChannelsError_eq_true cfg).mp h) (by omega)

/-- With every flag 0 before it, no flag is 1 after the activation (R113). -/
theorem State.activate_tlm {s : State} {c : Ch} (h : (s.chan c).tlm = false) :
    (s.activate.chan c).tlm = false := by
  by_cases hc : c.val < s.cfg.nch
  · rw [State.chan_activate_of_lt s hc]
  · rw [State.chan_activate_of_ge s (by omega), h]

/-- The cursor's successor after its reset value `NCH - 1` is 0 (R19, R30). -/
theorem State.nextIndex_of_last {s : State} (hnch : 1 ≤ s.cfg.nch)
    (hlast : s.rrIdx.val = s.cfg.nch - 1) : s.nextIndex = 0 := by
  refine Fin.ext ?_
  rw [(s.nextIndex_val hnch).1, hlast, Nat.sub_add_cancel hnch, Nat.mod_self]
  rfl

/-- The activation leaves the cursor, and so its successor, alone (R113). -/
theorem State.activate_nextIndex (s : State) : s.activate.nextIndex = s.nextIndex := by
  rw [State.nextIndex, State.nextIndex, State.activate_rrIdx, State.activate_cfg]

@[simp] theorem State.activate_halted (s : State) : s.activate.halted = s.halted := by
  rw [State.halted, State.halted, State.activate_cfgErrIvl, State.activate_cfgErrNch]

/-- TLM_START and then RQ_TICK in a running block with no flag set ask the successor of the cursor
(R111, R113). -/
theorem exec_rqTick_of_activate {s : State} (hrun : s.halted = false)
    (hflags : ∀ c, (s.chan c).tlm = false) :
    exec .rqTick s.activate = .next s.activate.advanceRound ∧
      ∀ c, (s.activate.advanceRound.chan c).tlm = decide (c = s.nextIndex) := by
  have hcleared : ∀ c, (s.activate.chan c).tlm = false := fun c => State.activate_tlm (hflags c)
  refine ⟨exec_rqTick_of_valid (s.activate_halted.trans hrun) rfl (fun c _ => hcleared c) rfl,
    fun c => ?_⟩
  rw [State.chan_advanceRound, State.activate_nextIndex]
  simp [hcleared]

/-- Settles O34: activation clears the flags and sets `RX_WR` to 10, so the round is valid, and it asks
the successor of the cursor's reset value. -/
theorem firstRoundAsksChannelZero : Obligations.FirstRoundAsksChannelZero := by
  intro cfg u hivl hnch hen
  have hrun := resetWith_running u hivl hnch
  have hflags : ∀ c, ((State.resetWith cfg u).chan c).tlm = false :=
    fun c => by rw [State.chan_resetWith]; rfl
  have hzero : (State.resetWith cfg u).nextIndex = 0 :=
    State.nextIndex_of_last hnch (resetIndex_val cfg)
  have hstart : exec .tlmStart (State.resetWith cfg u) = .next (State.resetWith cfg u).activate :=
    (execTlmStart_eq_next _ _).mpr ⟨hrun, hen, rfl, rfl⟩
  obtain ⟨htick, hasked⟩ := exec_rqTick_of_activate hrun hflags
  rw [hzero] at hasked
  exact ⟨_, _, hstart, htick, (State.activate_nextIndex _).trans hzero, rfl, rfl, hasked 0,
    fun c hc => (hasked c).trans (decide_eq_false hc)⟩

/-- Settles O35: the request sets the flag in CLR, FS_CLR clears it, and `RX_WR` is still 0 at the next
RQ_TICK. -/
theorem requestInsideATickIsLost : Obligations.RequestInsideATickIsLost := by
  intro s c hrun hact hcursor hc hclr hflags hfull
  obtain ⟨hnext, hbelow⟩ := s.nextIndex_val (by omega)
  obtain rfl : c = s.nextIndex := Fin.ext (hc.trans hnext.symm)
  have hchan := s.chan_advanceRound s.nextIndex
  rw [if_pos rfl] at hchan
  obtain ⟨s2, hspent, honly, hcleared⟩ :=
    (fsClrSpendsTheFlag s.advanceRound s.nextIndex hbelow hrun).1 (by rw [hchan]; exact hclr)
  have hrun2 : s2.halted = false := by rw [honly]; exact hrun
  have hact2 : s2.tlmActive = true := by rw [honly]; exact hact
  have hshort : s2.rxWr ≠ 10 := by rw [honly]; simp
  obtain ⟨stale, short, habort⟩ := exec_rqTick_of_invalid hrun2 hact2 (.inr hshort)
  exact ⟨_, s2, _, exec_rqTick_of_valid hrun hact hflags hfull, by rw [hchan], hspent,
    by rw [hcleared], by rw [honly]; rfl, habort, rfl, rfl⟩

/-! ## Between two valid rounds -/

/-- A round that an RQ_TICK has begun: the coordinator is active and the current channel, which exists,
has its flag set (R111). -/
structure State.Asking (s : State) (c : Ch) : Prop where
  active : s.tlmActive = true
  current : s.rrIdx = c
  inRange : c.val < s.cfg.nch
  flag : (s.chan c).tlm = true

/-- A valid RQ_TICK begins such a round, with no byte received yet (R111). -/
theorem State.asking_of_valid {s t : State} (hcursor : s.rrIdx.val < s.cfg.nch)
    (he : exec .rqTick s = .next t) (hact : t.tlmActive = true) :
    t.Asking t.rrIdx ∧ t.rxWr = 0 := by
  obtain ⟨-, -, rfl⟩ := exec_rqTick_valid he hact
  refine ⟨⟨hact, rfl, (s.nextIndex_val (by omega)).2, ?_⟩, rfl⟩
  rw [State.chan_advanceRound]
  simp

/-- While the flag is set the next RQ_TICK is not valid (R111). -/
theorem State.Asking.stale {s : State} {c : Ch} (h : s.Asking c) : s.stale = true :=
  (State.stale_eq_true s).mpr ⟨c, h.inRange, h.flag⟩

/-- The flag stays set through every operation but RQ_TICK and the channel's FS_CLR (R116). -/
theorem State.Asking.of_exec {i : Instr} {s t : State} {c : Ch} (h : s.Asking c)
    (he : exec i s = .next t) (hi : i ≠ .rqTick) (hclr : i ≠ .fsClr c) : t.Asking c := by
  obtain ⟨hact, rfl, hlt, hflag⟩ := h
  obtain ⟨hact', hcur', hcfg', hflag'⟩ := exec_keeps_flag he hi hact hflag hclr
  exact ⟨hact', hcur', hcfg' ▸ hlt, hflag'⟩

/-- From a round that has begun to a valid RQ_TICK, FS_CLR of the current channel happens. -/
theorem State.Asking.fsClr_mem {ops : List Instr} {s t : State} {c : Ch} (h : s.Asking c)
    (hno : Instr.rqTick ∉ ops) (he : execAll ops s = .next t) (hstale : t.stale = false) :
    Instr.fsClr c ∈ ops := by
  induction ops generalizing s with
  | nil =>
    obtain rfl := (execAll_nil_eq_next s t).mp he
    simp [h.stale] at hstale
  | cons i ops ih =>
    obtain ⟨u, hi, hrest⟩ := (execAll_cons_eq_next i ops s t).mp he
    rw [List.mem_cons, not_or] at hno
    by_cases hclr : i = .fsClr c
    · exact hclr ▸ List.mem_cons_self
    · exact List.mem_cons_of_mem _ (ih (h.of_exec hi (Ne.symm hno.1) hclr) hno.2 hrest)

/-- An active coordinator stays active through every operation but RQ_TICK, and `RX_WR` advances by one
at most, only by RX_BYTE (R21, R23). -/
theorem exec_active {i : Instr} {s t : State} (he : exec i s = .next t) (hi : i ≠ .rqTick)
    (hact : s.tlmActive = true) :
    t.tlmActive = true ∧
      (t.rxWr = s.rxWr ∨ ∃ b, i = .rxByte b ∧ t.rxWr.val = s.rxWr.val + 1) := by
  have hstart : i ≠ .tlmStart := by
    rintro rfl
    obtain ⟨-, -, hinactive, -⟩ := (execTlmStart_eq_next s t).mp he
    simp [hact] at hinactive
  have hblock := exec_block he
  refine ⟨?active, ?cursor⟩
  case active =>
    rcases hblock.act with h | ⟨h, -⟩ | ⟨h, -⟩
    · rw [h, hact]
    · exact absurd h hi
    · exact absurd h hstart
  case cursor =>
    rcases hblock.wr with h | ⟨h, -⟩ | h | ⟨h, -⟩
    · exact .inl h
    · exact absurd h hi
    · exact .inr h
    · exact absurd h hstart

/-- What `RX_WR` advances by while the coordinator is active and no RQ_TICK happens are RX_BYTEs. -/
theorem execAll_bytes {ops : List Instr} {s t : State} (hno : Instr.rqTick ∉ ops)
    (he : execAll ops s = .next t) (hact : s.tlmActive = true) :
    ∃ bytes : List Byte, t.rxWr.val = s.rxWr.val + bytes.length ∧
      (bytes.map Instr.rxByte).Sublist ops := by
  induction ops generalizing s with
  | nil =>
    obtain rfl := (execAll_nil_eq_next s t).mp he
    exact ⟨[], rfl, List.Sublist.refl _⟩
  | cons i ops ih =>
    obtain ⟨u, hi, hrest⟩ := (execAll_cons_eq_next i ops s t).mp he
    rw [List.mem_cons, not_or] at hno
    obtain ⟨hact', hwr⟩ := exec_active hi (Ne.symm hno.1) hact
    obtain ⟨bytes, hlen, hsub⟩ := ih hno.2 hrest hact'
    rcases hwr with hsame | ⟨b, rfl, hone⟩
    · exact ⟨bytes, hsame ▸ hlen, hsub.cons _⟩
    · exact ⟨b :: bytes, by rw [List.length_cons]; omega, hsub.cons_cons _⟩

/-- Settles O57: the flag that the first RQ_TICK set has been cleared, and `RX_WR` has gone from 0 to
10. -/
theorem validRoundNeedsASpentFlagAndTenBytes : Obligations.ValidRoundNeedsASpentFlagAndTenBytes := by
  intro s s1 s2 s3 ops hcursor hfirst hact hno hops hsecond hact'
  obtain ⟨hasking, hempty⟩ := State.asking_of_valid hcursor hfirst hact
  obtain ⟨hstale, hfull, -⟩ := exec_rqTick_valid hsecond hact'
  obtain ⟨bytes, hlen, hsub⟩ := execAll_bytes hno hops hact
  refine ⟨hasking.fsClr_mem hno hops hstale, bytes, ?_, hsub⟩
  simpa [hempty, hfull] using hlen.symm

/-- An idle sequencer leaves IDLE by FS_TICK alone, and its FS_CLR is not enabled (R16, R91, R94). -/
theorem exec_of_idle {i : Instr} {s t : State} {c : Ch} (he : exec i s = .next t)
    (hidle : (s.chan c).fsPc = .idle) (hi : i ≠ .fsTick c) :
    (t.chan c).fsPc = .idle ∧ i ≠ .fsClr c := by
  constructor
  · rcases exec_fsPc he (c := c) with h | ⟨h, -⟩ | ⟨-, h, -⟩ | ⟨-, h, -⟩ | ⟨-, h, -⟩
    · rw [h, hidle]
    · exact absurd h hi
    all_goals simp [hidle] at h
  · rintro rfl
    obtain ⟨-, -, hclr, -⟩ := (execFsClr_eq_next c s t).mp he
    simp [hidle] at hclr

/-- From a round that has begun with its channel IDLE to a valid RQ_TICK: FS_TICK of the channel with
the flag set, then its FS_CLR. -/
theorem State.Asking.fsTick_then_fsClr {ops : List Instr} {s t : State} {c : Ch} (h : s.Asking c)
    (hidle : (s.chan c).fsPc = .idle) (hno : Instr.rqTick ∉ ops) (he : execAll ops s = .next t)
    (hstale : t.stale = false) :
    ∃ before after u, ops = before ++ .fsTick c :: after ∧ execAll before s = .next u ∧
      (u.chan c).tlm = true ∧ Instr.fsClr c ∈ after := by
  induction ops generalizing s with
  | nil =>
    obtain rfl := (execAll_nil_eq_next s t).mp he
    simp [h.stale] at hstale
  | cons i ops ih =>
    obtain ⟨u, hi, hrest⟩ := (execAll_cons_eq_next i ops s t).mp he
    rw [List.mem_cons, not_or] at hno
    by_cases htick : i = .fsTick c
    · subst htick
      have hasking := h.of_exec hi nofun nofun
      exact ⟨[], ops, s, rfl, rfl, h.flag, hasking.fsClr_mem hno.2 hrest hstale⟩
    · obtain ⟨hidle', hclr⟩ := exec_of_idle hi hidle htick
      obtain ⟨before, after, v, rfl, hbefore, hflag, hmem⟩ :=
        ih (h.of_exec hi (Ne.symm hno.1) hclr) hidle' hno.2 hrest
      exact ⟨i :: before, after, v, rfl, (execAll_cons_eq_next i before s v).mpr ⟨u, hi, hbefore⟩,
        hflag, hmem⟩

/-- Settles O58: from the first RQ_TICK to the second the round is one that has begun and ends with its
flag cleared. -/
theorem validRoundReadsTheFlagBeforeSpendingIt :
    Obligations.ValidRoundReadsTheFlagBeforeSpendingIt := by
  intro s s1 s2 s3 ops hcursor hfirst hact hidle hno hops hsecond hact'
  obtain ⟨hasking, -⟩ := State.asking_of_valid hcursor hfirst hact
  obtain ⟨hstale, -⟩ := exec_rqTick_valid hsecond hact'
  exact hasking.fsTick_then_fsClr hidle hno hops hstale

end Sys2Proof.Machine

/-! PROOFS. RX_BYTE against the scheduler's operations: they share no register but the channel they may
both write, and of that they write different fields (D13, 42_telemetry_coordinator.md R112). -/

namespace Sys2Proof.Machine

/-- The record plays no part in the train that is composed (R91). -/
theorem State.train_congr {s s' : State} {c : Ch} {r : TelemetryRecord} (hcfg : s'.cfg = s.cfg)
    (hchan : s'.chan c = { s.chan c with record := r }) : s'.train c = s.train c := by
  rw [State.train, State.train, hcfg, hchan]

/-- A tick leaves the record of its channel alone and depends on it in nothing else (R91). -/
theorem State.chan_tick_record {s s' : State} {c : Ch} {r : TelemetryRecord} (hcfg : s'.cfg = s.cfg)
    (hchan : s'.chan c = { s.chan c with record := r }) :
    (s'.tick c).chan c = { (s.tick c).chan c with record := r } := by
  have htrain := State.train_congr hcfg hchan
  cases hbusy : (s.chan c).txBusy with
  | false =>
    rw [State.tick_of_not_busy hbusy, State.tick_of_not_busy (s := s') (by rw [hchan]; exact hbusy)]
    simp [hchan, htrain]
  | true =>
    rw [State.tick_of_busy hbusy, State.tick_of_busy (s := s') (by rw [hchan]; exact hbusy)]
    simp [hchan, htrain]

/-- A scheduler operation or completion of channel c that runs in one state makes the same change, up to
the record, in every state that differs in the record of c and in registers it does not read (R101). -/
theorem exec_ignores_record {c : Ch} {i : Instr} {s t : State}
    (hi : i ∈ [Instr.fsTick c, .fsCopy c, .fsTrig c, .fsClr c, .txDone c])
    (h : exec i s = .next t) :
    ∃ sent, t = s.update c (t.chan c) sent ∧
      ∀ (s' : State) r, s'.cfg = s.cfg → s'.halted = s.halted →
        s'.chan c = { s.chan c with record := r } →
          exec i s' = .next (s'.update c { t.chan c with record := r } sent) := by
  simp only [List.mem_cons, List.not_mem_nil, or_false] at hi
  rcases hi with rfl | rfl | rfl | rfl | rfl
  · obtain ⟨hc, hrun, hidle, rfl⟩ := (execFsTick_eq_next c s t).mp h
    refine ⟨[], by rw [← State.setChan_eq_update, ← State.tick_eq_setChan],
      fun s' r hcfg hhalt hchan => (execFsTick_eq_next c s' _).mpr
        ⟨hcfg ▸ hc, hhalt.trans hrun, by rw [hchan]; exact hidle, ?_⟩⟩
    rw [← State.setChan_eq_update, ← State.chan_tick_record hcfg hchan, ← State.tick_eq_setChan]
  · obtain ⟨hc, hrun, hready, rfl⟩ := (execFsCopy_eq_next c s t).mp h
    refine ⟨[], by rw [← State.setChan_eq_update, State.chan_setChan_self],
      fun s' r hcfg hhalt hchan => (execFsCopy_eq_next c s' _).mpr
        ⟨hcfg ▸ hc, hhalt.trans hrun, by rw [hchan]; exact hready, ?_⟩⟩
    rw [← State.setChan_eq_update, State.chan_setChan_self, hchan]
  · obtain ⟨hc, hrun, htrig, rfl⟩ := (execFsTrig_eq_next c s t).mp h
    refine ⟨[(c, (s.chan c).transfer s.cfg.frameSlots)],
      by rw [← State.update, State.chan_update, if_pos rfl],
      fun s' r hcfg hhalt hchan => (execFsTrig_eq_next c s' _).mpr
        ⟨hcfg ▸ hc, hhalt.trans hrun, by rw [hchan]; exact htrig, ?_⟩⟩
    rw [← State.update, ← State.update, State.chan_update, if_pos rfl, hchan, hcfg]
    rfl
  · obtain ⟨hc, hrun, hclr, rfl⟩ := (execFsClr_eq_next c s t).mp h
    refine ⟨[], by rw [← State.setChan_eq_update, State.chan_setChan_self],
      fun s' r hcfg hhalt hchan => (execFsClr_eq_next c s' _).mpr
        ⟨hcfg ▸ hc, hhalt.trans hrun, by rw [hchan]; exact hclr, ?_⟩⟩
    rw [← State.setChan_eq_update, State.chan_setChan_self, hchan]
  · obtain ⟨hc, hrun, hbusy, rfl⟩ := (execTxDone_eq_next c s t).mp h
    refine ⟨[], by rw [← State.setChan_eq_update, State.chan_setChan_self],
      fun s' r hcfg hhalt hchan => (execTxDone_eq_next c s' _).mpr
        ⟨hcfg ▸ hc, hhalt.trans hrun, by rw [hchan]; exact hbusy, ?_⟩⟩
    rw [← State.setChan_eq_update, State.chan_setChan_self, hchan]

/-- A byte that is neither the tenth nor too many is appended (R112). -/
theorem State.receive_of_room {s : State} (b : Byte) (h : s.rxWr.val < rxCap) (h9 : s.rxWr.val ≠ 9) :
    s.receive b = s.appendByte b h := by
  rcases s.receive_cases b with ⟨hfull, -⟩ | ⟨_, -, he⟩ | ⟨_, hlast, -⟩
  · simp [hfull] at h
  · exact he
  · exact absurd hlast h9

/-- The tenth byte is appended and the ten are decoded (R112). -/
theorem State.receive_of_last {s : State} (b : Byte) (h : s.rxWr.val < rxCap) (h9 : s.rxWr.val = 9) :
    s.receive b =
      { (s.appendByte b h).setChan s.rrIdx
          { s.chan s.rrIdx with record := decodeTelemetry (s.appendByte b h).rxBuf } with
        lastDec := some s.rrIdx } := by
  rcases s.receive_cases b with ⟨hfull, -⟩ | ⟨_, hlast, -⟩ | ⟨_, -, he⟩
  · simp [hfull] at h
  · exact absurd h9 hlast
  · exact he

/-- A channel with a record of its own and one whose record is written: the writes may change places
when the record is not what the first one writes. -/
theorem State.chans_record_comm {s : State} {c k : Ch} {ch : Channel} (r : TelemetryRecord)
    (hrec : ch.record = (s.chan c).record) :
    ((s.setChan c ch).setChan k { (s.setChan c ch).chan k with record := r }).chans =
      ((s.setChan k { s.chan k with record := r }).setChan c
        { ch with record := ((s.setChan k { s.chan k with record := r }).chan c).record }).chans := by
  by_cases hk : k = c
  · subst hk; simp
  · rw [State.chan_setChan_of_ne _ _ hk, State.chan_setChan_of_ne _ _ (Ne.symm hk), ← hrec,
      State.setChan_comm _ _ _ hk]

/-- RX_BYTE after a scheduler operation has written a channel and `OUT` is RX_BYTE before it, which has
written the channel's record at most (R112). -/
theorem State.receive_update {s : State} {c : Ch} {ch : Channel} (sent : List (Ch × List Slot))
    (b : Byte) (hrec : ch.record = (s.chan c).record) :
    (s.update c ch sent).receive b =
      (s.receive b).update c { ch with record := ((s.receive b).chan c).record } sent := by
  rcases s.receive_cases b with ⟨hfull, he⟩ | ⟨h, h9, he⟩ | ⟨h, h9, he⟩
  · rw [he, State.receive_of_full (s := s.update c ch sent) b hfull]
    show _ = State.update _ c { ch with record := (s.chan c).record } sent
    rw [← hrec]; rfl
  · rw [he, State.receive_of_room (s := s.update c ch sent) b h h9]
    show _ = State.update _ c { ch with record := (s.chan c).record } sent
    rw [← hrec]; rfl
  · rw [he, State.receive_of_last (s := s.update c ch sent) b h h9]
    exact congrArg (fun chans => { s.appendByte b h with
      chans := chans, lastDec := some s.rrIdx, out := s.out ++ sent })
      (State.chans_record_comm (k := s.rrIdx) _ hrec)

/-- Settles O59: the scheduler's change of the channel and RX_BYTE's are of different registers. -/
theorem bytesAndTicksCommute : Obligations.BytesAndTicksCommute := by
  intro c b i hi s u t hexec hbyte
  obtain ⟨sent, hu, hsame⟩ := exec_ignores_record hi hexec
  have hrec : (u.chan c).record = (s.chan c).record := by
    rcases exec_record hexec (c := c) with h | ⟨⟨b', rfl⟩, -⟩
    · exact h
    · simp at hi
  have hblock := exec_block hexec
  have hhalt : u.halted = s.halted := by rw [State.halted, State.halted, hblock.ivl, hblock.nch]
  obtain ⟨hrun, ht⟩ := (execRxByte_eq_next b u t).mp hbyte
  refine ⟨if s.cfg.tlmEn then s.receive b else s,
    (execRxByte_eq_next b s _).mpr ⟨hhalt ▸ hrun, rfl⟩, ?_⟩
  rw [hblock.cfg] at ht
  split at ht
  case isTrue hen =>
    obtain ⟨r, hr⟩ := s.chan_receive b c
    obtain ⟨hcfg, hhalted, -⟩ := s.receive_keeps b
    rw [if_pos hen, hsame _ r hcfg hhalted hr, ← ht]
    have hreceive := State.receive_update sent b hrec
    rw [← hu, hr] at hreceive
    rw [hreceive]
  case isFalse hen => rw [if_neg hen, hexec, ht]

end Sys2Proof.Machine

/-! PROOFS. Host access: SET_CODE, SET_TLM, the register numbers of RD and what it returns
(44_host_access.md R140 to R144). -/

namespace Sys2Proof.Machine

/-! ## Writes -/

/-- Settles O36: SET_CODE's preconditions are a running block and a legal code. -/
theorem setCodeWritesTheCode : Obligations.SetCodeWritesTheCode := by
  refine fun s c v hc => ⟨fun hrun hv => ⟨_, (execSetCode_eq_next c v s _).mpr ⟨hc, hrun, hv, rfl⟩,
    s.onlyChannel_setChan c _, s.chan_setChan_self c _⟩,
    fun hoff => exec_refused_of_no_next fun t ht => ?refused⟩
  case refused =>
    obtain ⟨-, hrun, hv, -⟩ := (execSetCode_eq_next c v s t).mp ht
    rcases hoff with hhalt | hbig
    · simp [hrun] at hhalt
    · omega

/-- Settles O37: SET_TLM's preconditions are a running block and an inactive coordinator. -/
theorem setTlmWritesTheFlag : Obligations.SetTlmWritesTheFlag := by
  refine fun s c v hc => ⟨fun hrun hidle => ⟨_, (execSetTlm_eq_next c v s _).mpr ⟨hc, hrun, hidle, rfl⟩,
    s.onlyChannel_setChan c _, s.chan_setChan_self c _⟩,
    fun hoff => exec_refused_of_no_next fun t ht => ?refused⟩
  case refused =>
    obtain ⟨-, hrun, hidle, -⟩ := (execSetTlm_eq_next c v s t).mp ht
    rcases hoff with hhalt | hact
    · simp [hrun] at hhalt
    · simp [hidle] at hact

/-! ## The register numbers -/

/-- The number of a register (R143). -/
def Reg.number : Reg → Nat
  | .code => 0x00
  | .tlm => 0x01
  | .fsPc => 0x02
  | .txBusy => 0x03
  | .cntDirect => 0x04
  | .cntBuffered => 0x05
  | .recTemp => 0x08
  | .recCv => 0x09
  | .recCa => 0x0A
  | .recMah => 0x0B
  | .recErpm => 0x0C
  | .recCrc => 0x0D
  | .pri i => 0x20 + i
  | .sec i => 0x40 + i
  | .status => 0x80
  | .rrIdx => 0x81
  | .rxWr => 0x82
  | .rxBuf k => 0x90 + k.val

/-- A slot register's index is one of the twenty that have a number (R143). -/
def Reg.Numbered : Reg → Prop
  | .pri i | .sec i => i < 20
  | _ => True

/-- A number names the register whose number it is (R143). -/
theorem Reg.ofNumber_eq_some {r : Byte} {reg : Reg} (h : Reg.ofNumber r = some reg) :
    r.toNat = reg.number ∧ reg.Numbered := by
  unfold Reg.ofNumber at h
  dsimp only at h
  split_ifs at h
  · obtain rfl := Option.some.inj h
    simp only [Reg.number, Reg.Numbered]; omega
  · obtain rfl := Option.some.inj h
    simp only [Reg.number, Reg.Numbered]; omega
  · obtain rfl := Option.some.inj h
    rename_i hrange
    exact ⟨(Nat.add_sub_of_le hrange.1).symm, trivial⟩
  · unfold Reg.ofSingle at h
    split at h <;> cases h <;> exact ⟨‹r.toNat = _›, trivial⟩

/-- Every numbered register is named by its number (R143). -/
theorem Reg.ofNumber_number {reg : Reg} (h : reg.Numbered) :
    Reg.ofNumber (BitVec.ofNat 8 reg.number) = some reg := by
  have hbyte : reg.number < 256 → (BitVec.ofNat 8 reg.number).toNat = reg.number :=
    fun hlt => (BitVec.toNat_ofNat _ _).trans (Nat.mod_eq_of_lt hlt)
  cases reg with
  | pri i =>
    have hi : i < 20 := h
    rw [Reg.number] at hbyte ⊢
    simp only [Reg.ofNumber, hbyte (by omega)]
    rw [if_pos (by omega), Nat.add_sub_cancel_left]
  | sec i =>
    have hi : i < 20 := h
    rw [Reg.number] at hbyte ⊢
    simp only [Reg.ofNumber, hbyte (by omega)]
    rw [if_neg (by omega), if_pos (by omega), Nat.add_sub_cancel_left]
  | rxBuf k =>
    rw [Reg.number] at hbyte ⊢
    simp only [Reg.ofNumber, hbyte (by omega)]
    rw [if_neg (by omega), if_neg (by omega), dif_pos (by omega)]
    simp
  | code | tlm | fsPc | txBusy | cntDirect | cntBuffered | recTemp | recCv | recCa | recMah | recErpm
  | recCrc | status | rrIdx | rxWr => rfl

/-- The global registers are those numbered from `0x80` on (R143). -/
theorem Reg.isGlobal_iff {reg : Reg} (h : reg.Numbered) : reg.isGlobal = true ↔ 0x80 ≤ reg.number := by
  cases reg with
  | pri i | sec i =>
    have hi : i < 20 := h
    simp [Reg.isGlobal, Reg.number]; omega
  | rxBuf k => simp [Reg.isGlobal, Reg.number]; omega
  | _ => simp [Reg.isGlobal, Reg.number]

/-! ## RD -/

/-- RD of a per-channel register that exists (R142). -/
theorem exec_rd_channel {s : State} {c : Ch} {reg : Reg} (hc : c.val < s.cfg.nch)
    (hn : reg.Numbered) (hlocal : reg.isGlobal = false)
    (hslot : reg.slotExists s.cfg.frameSlots = true) :
    exec (.rd c (BitVec.ofNat 8 reg.number)) s = .next (s.answer (s.readReg c reg)) :=
  (execRd_eq_next c _ s _).mpr ⟨.inl hc, reg, Reg.ofNumber_number hn, by simp [hlocal], fun _ => hc,
    hslot, rfl⟩

/-- RD of a global register, in every state (R142). -/
theorem exec_rd_global (s : State) {reg : Reg} (hn : reg.Numbered) (hglobal : reg.isGlobal = true)
    (hslot : reg.slotExists s.cfg.frameSlots = true) :
    exec (.rd 0 (BitVec.ofNat 8 reg.number)) s = .next (s.answer (s.readReg 0 reg)) :=
  (execRd_eq_next 0 _ s _).mpr ⟨.inr rfl, reg, Reg.ofNumber_number hn, fun _ => rfl, by simp [hglobal],
    hslot, rfl⟩

/-- The one bit of a flag as a 32-bit word. -/
theorem setWidth_ofBool (b : Bool) : (BitVec.ofBool b).setWidth 32 = BitVec.ofNat 32 b.toNat := by
  cases b <;> rfl

theorem slot_eq_ofNat (v : Slot) : v = BitVec.ofNat 32 v.toNat := by
  rw [BitVec.ofNat_toNat, BitVec.setWidth_eq]

/-- Settles O38: each number names its register, whose bits RD zero-extends. -/
theorem rdReturnsChannelRegisters : Obligations.RdReturnsChannelRegisters := by
  intro s c hc row hrow
  have hread : ∀ reg : Reg, reg.Numbered → reg.isGlobal = false →
      reg.slotExists s.cfg.frameSlots = true → ∀ n, s.readReg c reg = BitVec.ofNat 32 n →
        exec (.rd c (BitVec.ofNat 8 reg.number)) s =
          .next { s with rdOut := s.rdOut ++ [BitVec.ofNat 32 n] } := by
    intro reg hn hlocal hslot n hvalue
    rw [exec_rd_channel hc hn hlocal hslot, hvalue]; rfl
  simp only [List.mem_cons, List.not_mem_nil, or_false] at hrow
  rcases hrow with rfl | rfl | rfl | rfl | rfl | rfl | rfl | rfl | rfl | rfl | rfl
  · exact hread .code trivial rfl rfl _ (BitVec.ofNat_toNat 32 _).symm
  · exact hread .tlm trivial rfl rfl _ (setWidth_ofBool _)
  · exact hread .txBusy trivial rfl rfl _ (setWidth_ofBool _)
  · exact hread .cntDirect trivial rfl rfl _ (slot_eq_ofNat _)
  · exact hread .cntBuffered trivial rfl rfl _ (slot_eq_ofNat _)
  · exact hread .recCv trivial rfl rfl _ (BitVec.ofNat_toNat 32 _).symm
  · exact hread .recCa trivial rfl rfl _ (BitVec.ofNat_toNat 32 _).symm
  · exact hread .recMah trivial rfl rfl _ (BitVec.ofNat_toNat 32 _).symm
  · exact hread .recErpm trivial rfl rfl _ (slot_eq_ofNat _)
  · exact hread .recCrc trivial rfl rfl _ (BitVec.ofNat_toNat 32 _).symm
  · refine hread .fsPc trivial rfl rfl _ ?_
    show (s.chan c).fsPc.bits.setWidth 32 = _
    cases (s.chan c).fsPc <;> rfl

/-- Settles O39: sign extension keeps the signed value. -/
theorem rdSignExtendsTheTemperature : Obligations.RdSignExtendsTheTemperature :=
  fun s c hc => ⟨_, exec_rd_channel (reg := .recTemp) hc trivial rfl rfl,
    BitVec.toInt_signExtend_of_le (by omega)⟩

/-- Settles O40: the slot registers exist below `FRAME_SLOTS`, which is at most 20. -/
theorem rdReturnsBufferSlots : Obligations.RdReturnsBufferSlots := by
  intro s c i hc hi
  have hnumbered : i < 20 := by rcases Config.frameSlots_cases s.cfg with h | h <;> omega
  exact ⟨exec_rd_channel (reg := .pri i) hc hnumbered rfl (decide_eq_true hi),
    exec_rd_channel (reg := .sec i) hc hnumbered rfl (decide_eq_true hi)⟩

/-- Settles O41: the global registers are read with CH 0 whatever `NCH` is. -/
theorem rdReturnsGlobalRegisters : Obligations.RdReturnsGlobalRegisters := by
  refine fun s => ⟨exec_rd_global s (reg := .status) trivial rfl rfl,
    exec_rd_global s (reg := .rrIdx) trivial rfl rfl, exec_rd_global s (reg := .rxWr) trivial rfl rfl,
    fun k => (exec_rd_global s (reg := .rxBuf k) trivial rfl rfl).trans ?_⟩
  rw [BitVec.ofNat_toNat]; rfl

/-- Settles O42: RD answers only for a register that the number names, in its range of numbers, and that
exists for this channel and configuration. -/
theorem rdIsRefusedWithoutARegister : Obligations.RdIsRefusedWithoutARegister := by
  intro s c r
  have hanswered : ∀ t, exec (.rd c r) s = .next t → ∃ reg : Reg, r.toNat = reg.number ∧
      reg.Numbered ∧ (reg.isGlobal = true → c = 0) ∧ (reg.isGlobal = false → c.val < s.cfg.nch) ∧
      reg.slotExists s.cfg.frameSlots = true := by
    intro t ht
    obtain ⟨-, reg, hreg, hglobal, hlocal, hslot, -⟩ := (execRd_eq_next c r s t).mp ht
    obtain ⟨hnumber, hnumbered⟩ := Reg.ofNumber_eq_some hreg
    exact ⟨reg, hnumber, hnumbered, hglobal, hlocal, hslot⟩
  refine ⟨fun hgap => exec_refused_of_no_next fun t ht => ?gap,
    fun hrange => exec_refused_of_no_next fun t ht => ?slot,
    fun hnum hc => exec_refused_of_no_next fun t ht => ?global,
    fun hnum hc => exec_refused_of_no_next fun t ht => ?channel⟩
  all_goals obtain ⟨reg, hnumber, hnumbered, hglobal, hlocal, hslot⟩ := hanswered t ht
  case gap =>
    cases reg <;> simp only [Reg.number, Reg.Numbered] at hnumber hnumbered <;> omega
  case slot =>
    cases reg <;> simp only [Reg.number, Reg.slotExists, decide_eq_true_eq] at hnumber hslot <;> omega
  case global => exact hc (hglobal ((Reg.isGlobal_iff hnumbered).mpr (hnumber ▸ hnum)))
  case channel =>
    have hnot : reg.isGlobal = false := by
      rw [← Bool.not_eq_true, Reg.isGlobal_iff hnumbered]; omega
    exact absurd (hlocal hnot) (Nat.not_lt.mpr hc)

/-! ## STATUS -/

/-- STATUS field by field, from its end (R144). -/
theorem State.getLsbD_status (s : State) (j : Nat) : s.status.getLsbD j =
    if j < 1 then (BitVec.ofBool s.cfgErrIvl).getLsbD j
    else if j < 2 then (BitVec.ofBool s.cfgErrNch).getLsbD (j - 1)
    else if j < 3 then (BitVec.ofBool s.tlmActive).getLsbD (j - 2)
    else if j < 4 then (BitVec.ofBool s.rqAbort).getLsbD (j - 3)
    else if j < 5 then (BitVec.ofBool s.rxOvf).getLsbD (j - 4)
    else if j < 8 then false
    else if j < 13 then (lastDecBits s.lastDec).getLsbD (j - 8)
    else false := by
  unfold State.status
  show BitVec.getLsbD (w := 19 + 5 + 3 + 1 + 1 + 1 + 1 + 1) _ j = _
  have hbelow : ∀ k n, 0 < n → (j - k < n ↔ j < k + n) := by omega
  simp only [BitVec.getLsbD_append]
  simp only [Nat.sub_sub, hbelow, BitVec.getLsbD_zero, Nat.reduceAdd, Nat.reduceLT]

/-- LAST_DEC as its five bits, read as a number (R22). -/
theorem toNat_lastDecBits (k : Option Ch) :
    (lastDecBits k).toNat = k.elim 0x1F (·.val) := by
  cases k with
  | none => rfl
  | some c => exact (BitVec.toNat_ofNat _ _).trans (Nat.mod_eq_of_lt (by omega))

/-- Settles O43: STATUS read bit by bit and field by field. -/
theorem statusLayout : Obligations.StatusLayout := by
  intro s
  refine ⟨?_, ?_, ?_, ?_, ?_, ?zeros, ?marker, ?high⟩
  case zeros =>
    refine BitVec.eq_of_getLsbD_eq fun j hj => ?_
    rw [BitVec.getLsbD_extractLsb', State.getLsbD_status, if_neg (by omega), if_neg (by omega),
      if_neg (by omega), if_neg (by omega), if_neg (by omega), if_pos (by omega)]
    simp
  case high =>
    refine BitVec.eq_of_getLsbD_eq fun j hj => ?_
    rw [BitVec.getLsbD_extractLsb', State.getLsbD_status, if_neg (by omega), if_neg (by omega),
      if_neg (by omega), if_neg (by omega), if_neg (by omega), if_neg (by omega), if_neg (by omega)]
    simp
  case marker =>
    have hfield : s.status.extractLsb' 8 5 = lastDecBits s.lastDec := by
      refine BitVec.eq_of_getLsbD_eq fun j hj => ?_
      rw [BitVec.getLsbD_extractLsb', State.getLsbD_status, if_neg (by omega), if_neg (by omega),
        if_neg (by omega), if_neg (by omega), if_neg (by omega), if_neg (by omega), if_pos (by omega),
        Nat.add_sub_cancel_left, decide_eq_true hj, Bool.true_and]
    rw [hfield, toNat_lastDecBits]
    cases s.lastDec <;> rfl
  all_goals rw [State.getLsbD_status]; simp

end Sys2Proof.Machine

/-! PROOFS. The invariants of the block: each is kept by every operation, and all of them by every step and
at every reset (10_state.md R31). -/

namespace Sys2Proof.Machine

/-! ## What each invariant needs of an operation -/

section Operation
variable {i : Instr} {s t : State}

/-- A running block has a channel (R152). -/
theorem State.nch_pos_of_running (hcfg : s.ConfigChecked) (hrun : s.halted = false) : 1 ≤ s.cfg.nch := by
  have hnch : s.cfgErrNch ≠ true := fun h => by simp [(State.halted_eq_true s).mpr (.inr h)] at hrun
  rw [hcfg.2, ne_eq, cfgChannelsError_eq_true] at hnch
  omega

theorem exec_keeps_cursor (he : exec i s = .next t) (h : s.CursorInRange) : t.CursorInRange := by
  have hblock := exec_block he
  rw [State.CursorInRange, hblock.cfg]
  intro hnch
  rcases hblock.rr with hsame | ⟨-, hnext, -⟩
  · rw [hsame]; exact h hnch
  · rw [hnext]; exact (s.nextIndex_val hnch).2

/-- The marker is set to the cursor, which names a channel (R22, R112). -/
theorem exec_keeps_marker (he : exec i s = .next t) (h : s.MarkerInRange) (hcursor : s.CursorInRange)
    (hcfg : s.ConfigChecked) : t.MarkerInRange := by
  have hblock := exec_block he
  intro k hk
  rw [hblock.cfg]
  rcases hblock.marker with hsame | ⟨-, hnone⟩ | ⟨b, rfl, -, hcur⟩
  · exact h k (hsame ▸ hk)
  · simp [hnone] at hk
  · obtain ⟨hrun, -⟩ := (execRxByte_eq_next b s t).mp he
    obtain rfl : s.rrIdx = k := Option.some.inj (hcur.symm.trans hk)
    exact hcursor (State.nch_pos_of_running hcfg hrun)

/-- TRIG is entered with no transfer in flight, and a transfer starts by leaving it (R16, R18). -/
theorem exec_keeps_trig (he : exec i s = .next t) (h : s.TrigMeansNotBusy) : t.TrigMeansNotBusy := by
  intro c htrig
  cases exec_chan he c
  case tickDirect hb _ hch | copy hb _ hch => rw [hch]; exact hb
  case tickBuffered hch | trig hch | clr hch => rw [hch] at htrig; cases htrig
  case done hch => rw [hch]
  all_goals
    rw [‹t.chan c = _›] at htrig ⊢
    exact h c htrig

/-- While the coordinator is active a flag rises for the new cursor alone (R116). -/
theorem exec_keeps_oneFlag (he : exec i s = .next t) (h : s.OneFlagAtATime) : t.OneFlagAtATime := by
  have hblock := exec_block he
  intro hact c hc hne
  rw [hblock.cfg] at hc
  rcases hblock.act with hsame | ⟨-, -, hoff, -⟩ | ⟨rfl, -⟩
  · rw [hsame] at hact
    have hbefore : (s.chan c).tlm = false := by
      rcases hblock.rr with hrr | ⟨-, -, -, hstale⟩
      · exact h hact c hc (hrr ▸ hne)
      · exact (State.stale_eq_false s).mp hstale c hc
    by_contra hset
    rcases exec_tlm_rises he hbefore (by simpa using hset) with ⟨-, hcur, -⟩ | ⟨-, hoff⟩
    · exact hne hcur
    · simp [hact] at hoff
  · simp [hact] at hoff
  · obtain ⟨-, -, -, rfl⟩ := (execTlmStart_eq_next s t).mp he
    rw [State.chan_activate_of_lt s hc]

theorem exec_keeps_config (he : exec i s = .next t) (h : s.ConfigChecked) : t.ConfigChecked := by
  have hblock := exec_block he
  rw [State.ConfigChecked, hblock.cfg, hblock.ivl, hblock.nch]
  exact h

theorem exec_keeps_disabled (he : exec i s = .next t) (h : s.DisabledInactive) : t.DisabledInactive := by
  have hblock := exec_block he
  intro hen
  rw [hblock.cfg] at hen
  rcases hblock.act with hsame | ⟨-, -, hoff, -⟩ | ⟨-, hen', -⟩
  · rw [hsame]; exact h hen
  · exact hoff
  · simp [hen] at hen'

theorem exec_keeps_aborted (he : exec i s = .next t) (h : s.AbortedInactive) : t.AbortedInactive := by
  have hblock := exec_block he
  intro habort
  rcases hblock.abort with hsame | ⟨-, hoff, -⟩ | ⟨-, hclear⟩
  · rcases hblock.act with hsame' | ⟨-, -, hoff, -⟩ | ⟨-, -, -, hclear, -⟩
    · rw [hsame']; exact h (hsame ▸ habort)
    · exact hoff
    · simp [habort] at hclear
  · exact hoff
  · simp [habort] at hclear

theorem exec_keeps_codes (he : exec i s = .next t) (h : s.CodesLegal) : t.CodesLegal := by
  intro c
  rcases exec_code he (c := c) with hsame | ⟨-, hlegal⟩
  · rw [hsame]; exact h c
  · exact hlegal

theorem exec_keeps_transfers (he : exec i s = .next t) (h : s.TransfersWhole) : t.TransfersWhole := by
  intro e hmem
  rw [(exec_block he).cfg]
  rcases exec_out he with hsame | ⟨c, -, hout, hc, -⟩
  · exact h e (hsame ▸ hmem)
  · rw [hout, List.mem_append, List.mem_singleton] at hmem
    rcases hmem with hold | rfl
    · exact h e hold
    · refine ⟨hc, Channel.transfer_length _ _, fun j h16 hj => ?_⟩
      rw [Channel.transfer_getElem? _ hj, Channel.priSlot_of_ge _ h16]

/-- Every operation keeps the invariants. -/
theorem exec_keeps_inv (he : exec i s = .next t) (h : s.Inv) : t.Inv where
  cursor := exec_keeps_cursor he h.cursor
  marker := exec_keeps_marker he h.marker h.cursor h.config
  trig := exec_keeps_trig he h.trig
  oneFlag := exec_keeps_oneFlag he h.oneFlag
  config := exec_keeps_config he h.config
  disabled := exec_keeps_disabled he h.disabled
  aborted := exec_keeps_aborted he h.aborted
  codes := exec_keeps_codes he h.codes
  transfers := exec_keeps_transfers he h.transfers

end Operation

/-! ## Reset and the steps -/

/-- The invariants hold right after a reset (R30). -/
theorem resetWith_inv (cfg : Config) (u : PowerUp) : (State.resetWith cfg u).Inv where
  cursor := by
    intro hnch
    show (resetIndex cfg).val < cfg.nch
    rw [resetIndex_val]; exact Nat.sub_one_lt_of_lt hnch
  marker := nofun
  trig := fun c => by rw [State.chan_resetWith]; nofun
  oneFlag := nofun
  config := ⟨rfl, rfl⟩
  disabled := fun _ => rfl
  aborted := nofun
  codes := fun c => by rw [State.chan_resetWith]; exact Nat.zero_le _
  transfers := nofun

/-- Settles O49: `State.reset` is one of the reset states. -/
theorem resetHasTheInvariants : Obligations.ResetHasTheInvariants :=
  ⟨resetWith_inv, resetWith_inv _ _⟩

/-- No invariant speaks of what is presented or of the count of free choices. -/
theorem State.SameBlock.inv {s t : State} (hsame : s.SameBlock t) (h : s.Inv) : t.Inv := by
  rw [hsame]
  exact ⟨h.cursor, h.marker, h.trig, h.oneFlag, h.config, h.disabled, h.aborted, h.codes, h.transfers⟩

/-- Settles O48: a step is nothing, a reset, or one operation in the same block. -/
theorem stepKeepsTheInvariants : Obligations.StepKeepsTheInvariants := by
  intro s t h hstep
  rcases step_cases hstep with ⟨-, -, rfl⟩ | ⟨cfg, u, rest, -, rfl⟩ | ⟨_, rest, i, -, -, he⟩ |
    ⟨i, -, -, he⟩
  · exact h
  · exact State.SameBlock.inv (s := State.resetWith cfg u) rfl (resetWith_inv cfg u)
  · exact exec_keeps_inv he ((s.sameBlock_withInputs rest).inv h)
  · exact exec_keeps_inv he (s.sameBlock_countDraw.inv h)

end Sys2Proof.Machine

/-! PROOFS. Steps of the whole block: no fault, the halted block, what fires by itself and for how long
(20_memory.md R42, 10_state.md R26, 30_encoding.md R67, 70_reset_and_hazards.md R196). -/

namespace Sys2Proof.Machine

/-- Settles O50: a step is no operation at all or one that does not fault. -/
theorem noStepFaults : Obligations.NoStepFaults := by
  refine ⟨exec_ne_fault, fun s f => ?_⟩
  unfold step
  cases s.nextAction with
  | quiet | illegal why | reset t => exact nofun
  | run i t => exact exec_ne_fault i t f

/-- In a halted block no internal operation fires (R26). -/
theorem State.pickInternal?_of_halted {s : State} (hhalt : s.halted = true) : s.pickInternal? = none := by
  cases hpick : s.pickInternal? with
  | none => rfl
  | some i =>
    obtain ⟨hrun, -⟩ := State.pickInternal?_enabled hpick
    simp [hhalt] at hrun

/-- Settles O46: in a halted block nothing fires by itself, and of the presented operations only RD is not
refused. -/
theorem haltedBlockOnlyAnswersReads : Obligations.HaltedBlockOnlyAnswersReads := by
  intro s t hhalt hnoReset hstep
  rcases step_cases hstep with ⟨-, -, rfl⟩ | ⟨cfg, u, rest, hin, -⟩ | ⟨_, rest, i, -, -, he⟩ |
    ⟨i, -, hpick, -⟩
  · rfl
  · exact absurd hin (hnoReset cfg u rest)
  · rcases (exec_block he).run with hrun | ⟨c, r, rfl⟩
    · exact absurd (hrun.symm.trans hhalt) nofun
    · obtain ⟨v, rfl⟩ := execRd_only_answers he; rfl
  · simp [State.pickInternal?_of_halted hhalt] at hpick

/-- Settles O54: what fires is what `State.pickInternal?` chooses, an enabled operation where there is
one. -/
theorem enabledInternalOperationFires : Obligations.EnabledInternalOperationFires := by
  refine fun s hin => ⟨fun hquiet => ?quiet, fun hrun ⟨c, hc, henabled⟩ => ?fires⟩
  case quiet =>
    rw [step_of_no_input hin]
    cases hpick : s.pickInternal? with
    | none => rfl
    | some i =>
      obtain ⟨hrun, c, hc, hi⟩ := State.pickInternal?_enabled hpick
      rcases hquiet with hnone | hhalt
      · simp [hnone c hc] at hi
      · simp [hrun] at hhalt
  case fires =>
    obtain ⟨i, hpick⟩ := State.exists_pickInternal? hrun c hc henabled
    obtain ⟨-, c', hc', hi⟩ := State.pickInternal?_enabled hpick
    obtain ⟨t, he, -⟩ := exec_internalOp (s := s.countDraw) hrun hc' hi
    exact ⟨c', i, t, hc', hi, he, by rw [step_of_no_input hin, hpick]; exact he⟩

/-! ## Until the block rests -/

/-- A block has at most three operations before it for each channel (R16). -/
theorem State.pendingOps_le (s : State) : s.pendingOps ≤ 48 := by
  rw [State.pendingOps_eq_sum]
  calc (∑ c : Ch, if c.val < s.cfg.nch then (s.chan c).pendingOps else 0)
      ≤ ∑ _c : Ch, 3 := Finset.sum_le_sum fun c _ => by
        split
        · exact Channel.pendingOps_le _
        · exact Nat.zero_le 3
    _ = 48 := rfl

/-- No operation is before the block exactly when no channel enables one (R196). -/
theorem State.pendingOps_eq_zero (s : State) :
    s.pendingOps = 0 ↔ ∀ c : Ch, c.val < s.cfg.nch → s.internalOp? c = none := by
  rw [State.pendingOps_eq_sum, Finset.sum_eq_zero_iff]
  simp [State.internalOp?_eq_none]

/-- Where one operation fewer is before one channel and the others are as before, one fewer is before the
block. -/
theorem State.pendingOps_succ {s t : State} {c : Ch} (hcfg : t.cfg = s.cfg) (hc : c.val < s.cfg.nch)
    (hown : (t.chan c).pendingOps + 1 = (s.chan c).pendingOps)
    (hother : ∀ k, k ≠ c → t.chan k = s.chan k) : t.pendingOps + 1 = s.pendingOps := by
  rw [State.pendingOps_eq_sum, State.pendingOps_eq_sum, hcfg,
    ← Finset.add_sum_erase _ _ (Finset.mem_univ c), ← Finset.add_sum_erase Finset.univ
      (fun k : Ch => if k.val < s.cfg.nch then (s.chan k).pendingOps else 0) (Finset.mem_univ c),
    Finset.sum_congr rfl fun k hk => by rw [hother k (Finset.ne_of_mem_erase hk)]]
  simp only [if_pos hc]
  omega

/-- A step of a running block with operations before it performs one of them (R196). -/
theorem step_of_pending {s : State} {n : Nat} (hin : s.inputs = []) (hrun : s.halted = false)
    (hn : s.pendingOps = n + 1) :
    ∃ t, step s = .next t ∧ t.inputs = [] ∧ t.halted = false ∧ t.pendingOps = n ∧
      ∃ c i, c.val < s.cfg.nch ∧ s.internalOp? c = some i ∧ exec i s.countDraw = .next t := by
  have henabled : ∃ c : Ch, c.val < s.cfg.nch ∧ s.internalOp? c ≠ none := by
    by_contra hnone
    push Not at hnone
    rw [(State.pendingOps_eq_zero s).mpr hnone] at hn
    omega
  obtain ⟨c, i, t, hc, hi, he, hstep⟩ := (enabledInternalOperationFires s hin).2 hrun henabled
  obtain ⟨t', he', hcfg, hrun', hin', hown, hother⟩ := exec_internalOp (s := s.countDraw) hrun hc hi
  obtain rfl : t' = t := by simpa [he] using he'.symm
  refine ⟨t', hstep, hin'.trans hin, hrun', ?_, c, i, hc, hi, he⟩
  have hless : t'.pendingOps + 1 = s.pendingOps := State.pendingOps_succ hcfg hc hown hother
  omega

/-- As many steps as operations are before the block bring it to rest (R196). -/
theorem run_pendingOps (n : Nat) {s : State} (hin : s.inputs = []) (hrun : s.halted = false)
    (hn : s.pendingOps = n) : ∃ t : State, Sys2Proof.core.run n s = .next t ∧ t.pendingOps = 0 := by
  induction n generalizing s with
  | zero => exact ⟨s, rfl, hn⟩
  | succ n ih =>
    obtain ⟨t, hstep, hin', hrun', hn', -⟩ := step_of_pending hin hrun hn
    rw [run_succ n hstep]
    exact ih hin' hrun' hn'

/-- A channel with no operation before it is IDLE or waits for its engine (R16). -/
theorem Channel.rests_of_pendingOps_eq_zero {ch : Channel} (h : ch.pendingOps = 0) :
    ch.fsPc = .idle ∨ (ch.fsPc = .wait ∧ ch.txBusy = true) := by
  unfold Channel.pendingOps at h
  cases hpc : ch.fsPc <;> cases hbusy : ch.txBusy <;> simp_all

/-- Settles O55: each step takes one operation off the sum over the channels. -/
theorem internalOperationsRunOut : Obligations.InternalOperationsRunOut := by
  refine fun s hin hrun => ⟨s.pendingOps_le, fun n => step_of_pending hin hrun,
    fun hzero => ⟨?quiet, fun c hc => ?rests⟩, run_pendingOps _ hin hrun rfl⟩
  all_goals have hnone := (State.pendingOps_eq_zero s).mp hzero
  case quiet => exact (enabledInternalOperationFires s hin).1 (.inl hnone)
  case rests =>
    exact Channel.rests_of_pendingOps_eq_zero ((State.internalOp?_eq_none s c).mp (hnone c hc))

end Sys2Proof.Machine

/-! PROOFS. The domain of the configuration (00_scope.md R5, 60_exceptions.md R152). -/

namespace Sys2Proof.Machine

/-- The domain of R5, clause by clause. -/
theorem inDomain_iff (p : Params) : p.inDomain = true ↔
    p.nch ≤ 16 ∧ 1 ≤ p.speedKhz ∧ p.shift.length = p.nch ∧
      (∀ k ∈ p.shift, k = 0 ∨ (k = 16 ∧ p.high.toNat < 65536 ∧ p.low.toNat < 65536)) ∧
      (p.frameSlots = 16 ∨ p.frameSlots = 20) := by
  simp [Params.inDomain, Params.shiftOk, and_assoc]

/-- Settles O47: each clause of the refusal contradicts the domain, and the others together are it. -/
theorem configurationsOutsideTheDomainAreRefused :
    Obligations.ConfigurationsOutsideTheDomainAreRefused := by
  refine fun p => ⟨fun hout => dif_neg fun hin => ?outside,
    fun hnch hspeed hslots hlen hshift hduty => ⟨_, dif_pos ((inDomain_iff p).mpr
      ⟨hnch, hspeed, hlen, fun k hk => ?shift, hslots⟩), rfl⟩⟩
  case outside =>
    obtain ⟨hnch, hspeed, -, hshift, hslots⟩ := (inDomain_iff p).mp hin
    rcases hout with h | h | ⟨h16, h20⟩ | ⟨k, hk, h0, h16⟩ | ⟨hmem, hduty⟩
    · omega
    · omega
    · exact hslots.elim h16 h20
    · exact (hshift k hk).elim h0 fun h => h16 h.1
    · rcases hshift 16 hmem with h | ⟨-, hhigh, hlow⟩ <;> omega
  case shift =>
    rcases hshift k hk with h | rfl
    · exact .inl h
    · exact .inr ⟨rfl, hduty hk⟩

end Sys2Proof.Machine
